-- ==== Sys2Proof/Word.lean ====
section
/-! DEFINITION. The operation word and the widths of the core's cells (spec/30_encoding.md R81, spec/10_state.md R20). -/

namespace Sys2Proof

/-- An operation word: "Every operation word is 16 bits, in one format" (R81). -/
abbrev Word := BitVec 16

/-- s8, two's complement: MotorSpeed and PreviousMotorSpeed (R21, R22; SPEED_W of R9). -/
abbrev Speed := BitVec 8

/-- u16: a count of capture ticks (R23, R27; CAP_W of R9). -/
abbrev CapTicks := BitVec 16

/-- u8: a count of switching ticks (R32, R33; SW_W of R9). -/
abbrev SwTicks := BitVec 8

end Sys2Proof
end

