-- ==== Sys2Proof/Config.lean ====
section
/-! DEFINITION. The configuration record of spec/00_scope.md R9, and the free values behind its OPEN fields. -/

namespace Sys2Proof

/-- cfg.LED_MAP, the OPEN map from the indicator's codes to LED lines (R39, I12): one line pattern for each of the
three codes of R43, as a number, since the spec gives no number of lines. DESIGN CHOICE: the shape (log entry 3). -/
structure LedMap where
  neutral  : Nat
  forward  : Nat
  backward : Nat
deriving DecidableEq, Repr

/-- The record `cfg` of R9: "A model takes the record as a parameter. The record is fixed at core start and never
changes during a run." Every statement about the model is for every configuration that `launch` accepts. -/
structure Config where
  /-- Microseconds per capture tick. -/
  CAP_TICK   : Nat
  /-- Bits of the capture counter and of PulseSample. -/
  CAP_W      : Nat
  /-- Capture ticks to the timeout (R48). -/
  TMO_TICKS  : Nat
  /-- Lower bound of the tolerance band, itself rejected (R142). -/
  TOL_LO     : Nat
  /-- Upper bound of the tolerance band, itself rejected (R142). -/
  TOL_HI     : Nat
  /-- Clamp bounds (R143). -/
  CLAMP_LO   : Nat
  CLAMP_HI   : Nat
  /-- Centre of the pulse range (R144). -/
  CENTER     : Nat
  /-- Inclusive half-width of the deadband (R144). -/
  DEADBAND   : Nat
  /-- Ticks per speed unit (R145). -/
  DIVISOR    : Nat
  /-- Greatest magnitude of a speed (R147). -/
  SPEED_MAX  : Nat
  /-- Bits of MotorSpeed and PreviousMotorSpeed. -/
  SPEED_W    : Nat
  /-- Bits of the switching counter and threshold. -/
  SW_W       : Nat
  /-- Compare A value (R46), OPEN. -/
  SW_TOP     : Nat
  /-- Duration of one switching tick (R82), OPEN; no rule reads it. -/
  SW_TICK    : Nat
  /-- Level of the command line at core start (R52), OPEN. -/
  CMD_LEVEL0 : Bool
  /-- Indicator code to LED lines, OPEN and out of scope. -/
  LED_MAP    : LedMap
deriving DecidableEq, Repr

/-- Free value: the duration of a switching tick, which no rule gives (R9 SW_TICK, log entry 3). -/
opaque Config.openSwTick : Nat

/-- Free value: the LED lines of an indicator code (R9 LED_MAP, log entry 3). -/
opaque Config.openLedLines : BitVec 2 → Nat

/-- The configuration with R9's given values and the two OPEN values that are passed. -/
def Config.source (swTop : Nat) (cmdLevel0 : Bool) : Config where
  CAP_TICK := 1
  CAP_W := 16
  TMO_TICKS := 20000
  TOL_LO := 800
  TOL_HI := 2200
  CLAMP_LO := 1000
  CLAMP_HI := 2000
  CENTER := 1500
  DEADBAND := 75
  DIVISOR := 5
  SPEED_MAX := 100
  SPEED_W := 8
  SW_W := 8
  SW_TOP := swTop
  SW_TICK := Config.openSwTick
  CMD_LEVEL0 := cmdLevel0
  LED_MAP := ⟨Config.openLedLines 0#2, Config.openLedLines 1#2, Config.openLedLines 2#2⟩

/-- The configuration State.reset carries. DESIGN CHOICE (log entry 2): SW_TOP = 109 and CMD_LEVEL0 = 0 are OPEN in R9;
these are the values spec/95_test_vectors.md takes. No statement rests on them. -/
def Config.initial : Config := Config.source 109 false

end Sys2Proof
end

