-- ==== Sys2Proof/Syntax.lean ====
section
/-! DEFINITION. The fourteen operations of spec/opcode_table.json (spec/30_encoding.md R80, R84, R85), one constructor a row. -/

namespace Sys2Proof

/-- The core's operations. The first six are *stimulus operations*, applied by the environment and written in a
trace (R84). The other eight are *handler actions*, which run inside a stimulus step only (R85). A count `n` is the
unsigned number of single steps of the word (R83, R86). -/
inductive Instr where
  | rise
  | fall
  | ctick (n : Nat)
  | stick (n : Nat)
  | mstep (n : Nat)
  | reset
  | capr
  | capf
  | tmo
  | cmpa
  | cmpb
  | mtake
  | mspd
  | mind
deriving DecidableEq, Repr

end Sys2Proof
end

