-- ==== Sys2Proof/WellFormed.lean ====
section
/-! DEFINITION. Which operations the 16-bit encoding can hold (spec/30_encoding.md R83), and the two classes of R80. -/

namespace Sys2Proof

/-- "A count word needs `1 <= count <= 4095`" (R83). -/
def countFits (n : Nat) : Bool := 1 ≤ n && n ≤ 4095

/-- An operation that has a word of its own. -/
def Instr.wellFormed : Instr → Bool
  | .rise => true
  | .fall => true
  | .ctick n => countFits n
  | .stick n => countFits n
  | .mstep n => countFits n
  | .reset => true
  | .capr => true
  | .capf => true
  | .tmo => true
  | .cmpa => true
  | .cmpb => true
  | .mtake => true
  | .mspd => true
  | .mind => true

/-- Class 1 of R80: "*Stimulus operations* are applied by the environment". The rest are handler actions (class 2). -/
def Instr.isStimulus : Instr → Bool
  | .rise => true
  | .fall => true
  | .ctick _ => true
  | .stick _ => true
  | .mstep _ => true
  | .reset => true
  | .capr => false
  | .capf => false
  | .tmo => false
  | .cmpa => false
  | .cmpb => false
  | .mtake => false
  | .mspd => false
  | .mind => false

/-- An operation that is one atomic step: no count, or a count of 1 (R86). -/
def Instr.isSingle : Instr → Bool
  | .rise => true
  | .fall => true
  | .ctick n => n == 1
  | .stick n => n == 1
  | .mstep n => n == 1
  | .reset => true
  | .capr => true
  | .capf => true
  | .tmo => true
  | .cmpa => true
  | .cmpb => true
  | .mtake => true
  | .mspd => true
  | .mind => true

end Sys2Proof
end

