-- ==== Sys2Proof/Decode.lean ====
section
/-! DEFINITION. Decoding of operation words, total on every 16-bit word (spec/30_encoding.md R81 to R90), and the encoder. -/

namespace Sys2Proof

/-- Why a word is no stimulus: the five named refusals of R87. -/
inductive Illegal where
  /-- Op 0x0, the all-zero word included (R88, E1). -/
  | illegalOpcode
  /-- Op 0x7 (R88, E2). -/
  | reservedOpcode
  /-- Ops 0x8 to 0xF, which stand in history records only (R85, R88, E3). -/
  | historyOnlyCode
  /-- A non-zero operand on RISE, FALL or RESET (R88, E4). -/
  | operandNotZero
  /-- A zero count on CTICK, STICK or MSTEP (R88, E5). -/
  | zeroCount
deriving DecidableEq, Repr

/-- What R87's `decode` answers: one stimulus or a named refusal. -/
inductive Decoded where
  | stim (i : Instr)
  | illegal (why : Illegal)
deriving DecidableEq, Repr

/-- Field `op`, bits [15:12] (R81). -/
def opField (w : Word) : Nat := (w.extractLsb' 12 4).toNat

/-- Field `n`, bits [11:0], zero-extended: "It is not scaled, shifted or sign-extended" (R81, R83). -/
def nField (w : Word) : Nat := (w.extractLsb' 0 12).toNat

/-- An operation without operand: "their bits [11:0] must be 0" (R83). -/
def plainOperand (i : Instr) (n : Nat) : Decoded :=
  if n = 0 then .stim i else .illegal .operandNotZero

/-- An operation with a count: "count 0 is reserved" (R83). -/
def countOperand (i : Nat → Instr) (n : Nat) : Decoded :=
  if 1 ≤ n then .stim (i n) else .illegal .zeroCount

/-- The decoder of trace words, the case table of R87. -/
def decode (w : Word) : Decoded :=
  match opField w with
  | 0x1 => plainOperand .rise (nField w)
  | 0x2 => plainOperand .fall (nField w)
  | 0x3 => countOperand .ctick (nField w)
  | 0x4 => countOperand .stick (nField w)
  | 0x5 => countOperand .mstep (nField w)
  | 0x6 => plainOperand .reset (nField w)
  | 0x0 => .illegal .illegalOpcode
  | 0x7 => .illegal .reservedOpcode
  | _ => .illegal .historyOnlyCode

/-- The reader of handler action codes, "with bits [11:0] = 0" (R85). They stand in history records (R89), never in a
trace. -/
def decodeAction (w : Word) : Option Instr :=
  if nField w = 0 then
    match opField w with
    | 0x8 => some .capr
    | 0x9 => some .capf
    | 0xA => some .tmo
    | 0xB => some .cmpa
    | 0xC => some .cmpb
    | 0xD => some .mtake
    | 0xE => some .mspd
    | 0xF => some .mind
    | _ => none
  else none

/-- The word of an operation code and an operand (R81). -/
def wordOf (op n : Nat) : Word := BitVec.ofNat 16 (op * 4096 + n % 4096)

/-- The word of a well-formed operation: codes of R84 and R85, count in bits [11:0] (R81). -/
def encode : Instr → Word
  | .rise => wordOf 0x1 0
  | .fall => wordOf 0x2 0
  | .ctick n => wordOf 0x3 n
  | .stick n => wordOf 0x4 n
  | .mstep n => wordOf 0x5 n
  | .reset => wordOf 0x6 0
  | .capr => wordOf 0x8 0
  | .capf => wordOf 0x9 0
  | .tmo => wordOf 0xA 0
  | .cmpa => wordOf 0xB 0
  | .cmpb => wordOf 0xC 0
  | .mtake => wordOf 0xD 0
  | .mspd => wordOf 0xE 0
  | .mind => wordOf 0xF 0

/-- The operation a word of spec/opcode_table.json stands for, whichever of the table's two formats it has: format
stim16 through `decode`, format history16 through `decodeAction` (log entry 7). A history16 word is an operation of the
table and yet illegal in a trace, where `step` reads with `decode` alone. Every word is 16 bits, with no operand word
(R81), and words have no byte order (R61), so the table's bit numbers are the word's own (log entry 14). -/
def decodeTableWord (nbits w : Nat) : Option Instr :=
  if nbits ≤ 16 ∧ w < 2 ^ 16 then
    match decode (BitVec.ofNat 16 w) with
    | .stim i => some i
    | .illegal .historyOnlyCode => decodeAction (BitVec.ofNat 16 w)
    | .illegal .illegalOpcode => none
    | .illegal .reservedOpcode => none
    | .illegal .operandNotZero => none
    | .illegal .zeroCount => none
  else none

end Sys2Proof
end

