-- ==== Sys2Proof/Machine/Patterns.lean ====
section
/-! DEFINITION. The codes of the output ports and of the sequencer (spec/10_state.md R31, R40, R41, R43). -/

namespace Sys2Proof.Machine

/-- FWD: HA and LB on (R41). -/
abbrev Hb.FWD : BitVec 4 := 0x9#4
/-- BWD: LA and HB on (R41). -/
abbrev Hb.BWD : BitVec 4 := 0x6#4
/-- RCH: both low sides on, both high sides off (R41). -/
abbrev Hb.RCH : BitVec 4 := 0x5#4

/-- Neutral (R43). -/
abbrev Ind.NEU : BitVec 2 := 0#2
/-- Forward (R43). -/
abbrev Ind.FWD : BitVec 2 := 1#2
/-- Backward (R43). -/
abbrev Ind.BWD : BitVec 2 := 2#2

/-- The loop polls the event cells (R31). -/
abbrev Mpc.POLL : BitVec 2 := 0#2
/-- An event has been taken and the speed is to be written (R31). -/
abbrev Mpc.SPEED : BitVec 2 := 1#2
/-- The speed has been written and the indicator is to be updated (R31). -/
abbrev Mpc.IND : BitVec 2 := 2#2

/-- The indicator code of a speed's sign: "NEU for 0, FWD for positive, BWD for negative" (R53 clause 7). -/
def signCode (v : Int) : BitVec 2 :=
  if v = 0 then Ind.NEU else if 0 < v then Ind.FWD else Ind.BWD

end Sys2Proof.Machine
end

