-- ==== Sys2Proof/Machine/State.lean ====
section
/-! DEFINITION. The state: the fifteen cells of spec/10_state.md R20, the configuration, the trace and the run's records. -/

namespace Sys2Proof.Machine

/-- InputEdgePhase (R26, R44): "bit 0, 1 bit". -/
inductive Phase where
  /-- WaitingForRisingEdge, code 0. -/
  | WR
  /-- WaitingForFallingEdge, code 1. -/
  | WF
deriving DecidableEq, Repr

/-- A consumed event, "{Sample(width) | Timeout}" (R30). -/
inductive Event where
  | sample (w : CapTicks)
  | timeout
deriving DecidableEq, Repr

/-- The record `st` of R20, cell by cell under the spec's own names. -/
structure Cells where
  /-- MotorSpeed (R21). -/
  ms      : Speed
  /-- PreviousMotorSpeed (R22). -/
  prev    : Speed
  /-- PulseSample, or no value before the first capture (R23). -/
  sample  : Option CapTicks
  /-- The "pulse ready" flag (R24). -/
  ready   : Bool
  /-- TimeoutEvent (R25). -/
  tmo     : Bool
  /-- InputEdgePhase (R26). -/
  phase   : Phase
  /-- The capture/timeout counter (R27). -/
  cap_cnt : CapTicks
  /-- 1 when the capture/timeout counter counts (R28). -/
  cap_run : Bool
  /-- The present level of the command input line (R29). -/
  lvl     : Bool
  /-- The event the main loop has consumed but not yet turned into a speed, or no value (R30). -/
  mev     : Option Event
  /-- The position of the main loop's sequencer (R31); the value 3 "is never held". -/
  mpc     : BitVec 2
  /-- The switching counter (R32). -/
  sw_cnt  : SwTicks
  /-- The compare B threshold (R33). -/
  thr     : SwTicks
  /-- The H-bridge output pattern register, bits HA LA HB LB (R34, R40). -/
  hb      : BitVec 4
  /-- The direction indicator output register (R35). -/
  ind     : BitVec 2
deriving DecidableEq, Repr

/-- What one atomic step leaves behind: its history records (R89) and its observation (R97). -/
structure StepRecord where
  /-- The stimulus word, with a count of 1 for count operations (R89). -/
  stim : Word
  /-- The code of the one handler action the step ran, if any (R89). -/
  act  : Option Word
  /-- Output port `hb[3:0]` after the step (R39, R97). -/
  hb   : BitVec 4
  /-- Output port `ind[1:0]` after the step (R39, R97). -/
  ind  : BitVec 2
deriving DecidableEq, Repr

/-- The machine. `st` is the core's whole state (R20). `cfg` and `trace` are parameters of a run and `log` its records;
they stand here because a step has the state as its only argument (log entries 1, 2, 6). -/
structure State where
  /-- The configuration record (R9); no step writes it. -/
  cfg   : Config
  /-- The cells of the core. -/
  st    : Cells
  /-- The stimulus words still to be applied, the next one first (R94). -/
  trace : List Word
  /-- The records of the atomic steps taken, newest first (R89, R97). No rule reads it. -/
  log   : List StepRecord
deriving DecidableEq, Repr

/-- Why a step has no next state although its operation is legal. All are safe: they are raised only in states that
no run from a launch state reaches, and stop the machine there. -/
inductive Fault where
  /-- Raised by MTAKE: `ready = 1` and `sample` has no value ("`fault` if read", I11). Safe. -/
  | sampleNoValue
  /-- Raised by MSPD: no event in hand, which R204 gives no case for (log entry 9). Safe. -/
  | eventNoValue
deriving DecidableEq, Repr

/-- Why the model gives no step: `refuse(reason)` of R11, "a verdict of the model, not a behaviour of the hardware". -/
inductive Refusal where
  /-- Raised by `exec` for an operation that has no meaning yet. Safe. -/
  | notModelled (mnemonic : String)
  /-- Raised by `step` for a word that does not decode, and by a count operation given the reserved count 0 (R88, R92). Safe. -/
  | illegal (why : Illegal)
  /-- Raised by RISE when `lvl = 1` (R111). Safe. -/
  | levelAlreadyHigh
  /-- Raised by FALL when `lvl = 0` (R112). Safe. -/
  | levelAlreadyLow
  /-- Raised by `step` when the trace is used up: no stimulus is applied, so there is no step (R96, log entry 1). Safe. -/
  | endOfTrace
  /-- Raised by MSTEP at `mpc = 3`, which R201 has no case for (log entry 10). Safe. -/
  | sequencerReserved
  /-- Raised by MTAKE on its own with neither flag set, which is not its trigger (R203, log entry 8). Safe. -/
  | noEventPending
  /-- Raised by `launch`: the configuration breaks a constraint of R9 (I16). Safe. -/
  | badConfig
  /-- Raised by `launch`: the configuration meets R9's list but its speeds or widths do not fit the cells (log entry 4). Safe. -/
  | configBeyondCells
  /-- Raised by `launch`: the launch state breaks INV (R55, I15). Safe. -/
  | badLaunchState
deriving DecidableEq, Repr

/-- The cells at core start, the line at the given level: the table of R52. -/
def Cells.coreStart (level : Bool) : Cells where
  ms := 0#8
  prev := 0#8
  sample := none
  ready := false
  tmo := false
  phase := .WR
  cap_cnt := 0#16
  cap_run := true
  lvl := level
  mev := none
  mpc := Mpc.POLL
  sw_cnt := 0#8
  thr := 0#8
  hb := Hb.RCH
  ind := Ind.NEU

/-- Core start of a configuration with a trace to apply: `lvl` is "cfg.CMD_LEVEL0 at launch" (R52), nothing recorded. -/
def State.coreStart (cfg : Config) (trace : List Word) : State :=
  { cfg := cfg, st := Cells.coreStart cfg.CMD_LEVEL0, trace := trace, log := [] }

/-- The machine right after reset: core start (R260) of the initial configuration (log entry 2), no stimulus to apply
(log entry 1). -/
def State.reset : State := State.coreStart Config.initial []

end Sys2Proof.Machine
end

