-- ==== Sys2Proof/Machine/Ops.lean ====
section
/-! DEFINITION. The shared operations: writing the cells, ending an atomic step, taking an interrupt, repeating a step, and
fetching the next stimulus word. -/

namespace Sys2Proof.Machine

/-- What an operation answers. -/
abbrev Result := Host.Outcome State Fault Refusal

/-- The machine with new cells; configuration, trace and records stay. -/
def State.withSt (s : State) (c : Cells) : State := { s with st := c }

/-- Goes on from a next state; a fault or a refusal stops. -/
def andThen (r : Result) (f : State → Result) : Result :=
  match r with
  | .next t => f t
  | .fault e => .fault e
  | .refused e => .refused e

/-- The end of an atomic step: appends its history records (R89), "First it appends the stimulus word with a count of 1
for count operations" and "Then it appends the code of the one handler action that step ran, if any", and its
observation, the output ports after the step (R97). -/
def commit (stim : Instr) (act : Option Instr) (s : State) : State :=
  { s with log := ⟨encode stim, act.map encode, s.st.hb, s.st.ind⟩ :: s.log }

/-- Taking an interrupt, and running a main-loop sub-action: "A handler runs in the same atomic step as its trigger, with
zero latency" (R233). Entry "saves no state, changes no mode, uses no stack and jumps to no vector" (R237), so the
handler runs on the trigger's state as it stands. Return: "A handler ends with its step" (R238), which is the
`commit`. -/
def service (stim act : Instr) (handler : State → Result) (s : State) : Result :=
  andThen (handler s) fun t => .next (commit stim (some act) t)

/-- `n` consecutive single steps of one agent (R86), stopping at the first that has no next state. -/
def repeatStep (single : State → Result) : Nat → State → Result
  | 0, s => .next s
  | n + 1, s => andThen (single s) (repeatStep single n)

/-- The next stimulus word and the machine with the rest of the trace (R95: "in order"). -/
def fetch (s : State) : Option (Word × State) :=
  match s.trace with
  | [] => none
  | w :: rest => some (w, { s with trace := rest })

end Sys2Proof.Machine
end

