-- ==== Sys2Proof/Machine/DirectionIndicator.lean ====
section
/-! DEFINITION. Direction indicator: `indicate` and MIND (spec/43_direction_indicator.md). -/

namespace Sys2Proof.Machine

/-- `indicate(prev, new, cur)` (R191). -/
def indicate (prev new : Int) (cur : BitVec 2) : BitVec 2 :=
  if prev ≤ 0 ∧ 0 < new then Ind.FWD
  else if 0 ≤ prev ∧ new < 0 then Ind.BWD
  else if prev ≠ 0 ∧ new = 0 then Ind.NEU
  else cur

/-- MIND's writes (R192). -/
def Cells.showDirection (c : Cells) : Cells :=
  { c with ind := indicate c.prev.toInt c.ms.toInt c.ind, mpc := Mpc.POLL }

/-- MIND (R192), the main loop's indicator step. -/
def execMind (s : State) : Result := .next (s.withSt s.st.showDirection)

end Sys2Proof.Machine
end

