-- ==== Sys2Proof/Machine/Flags.lean ====
section
/-! DEFINITION. The flags an operation tests and the status the output pattern shows (spec/10_state.md R24, R25, R37, R40 to
R42). -/

namespace Sys2Proof.Machine

/-- An event is pending: `st.ready = 1 or st.tmo = 1` (R201). -/
def Cells.eventPending (c : Cells) : Bool := c.ready || c.tmo

/-- HBridgeOutputState of the source's data model (R37). -/
inductive HState where
  | Forward
  | Backward
  | Neutral
  | RechargeWindow
deriving DecidableEq, Repr

/-- `hstate(st)` (R37, conflicts C4, C14). -/
def hstate (c : Cells) : HState :=
  if c.hb = Hb.FWD then .Forward
  else if c.hb = Hb.BWD then .Backward
  else if c.thr = 0#8 then .Neutral
  else .RechargeWindow

/-- Bit 3, high side of half-bridge A (R40). -/
def switchHA (hb : BitVec 4) : Bool := hb.getLsbD 3
/-- Bit 2, low side of half-bridge A (R40). -/
def switchLA (hb : BitVec 4) : Bool := hb.getLsbD 2
/-- Bit 1, high side of half-bridge B (R40). -/
def switchHB (hb : BitVec 4) : Bool := hb.getLsbD 1
/-- Bit 0, low side of half-bridge B (R40). -/
def switchLB (hb : BitVec 4) : Bool := hb.getLsbD 0

/-- "both switches of one half-bridge" on: "HA with LA, or HB with LB" (R42). -/
def shootThrough (hb : BitVec 4) : Bool :=
  (switchHA hb && switchLA hb) || (switchHB hb && switchLB hb)

/-- "a high side with both low sides off" (R42). -/
def floating (hb : BitVec 4) : Bool :=
  (switchHA hb || switchHB hb) && !switchLA hb && !switchLB hb

/-- "The *safe* patterns are exactly {FWD, BWD, RCH}" (R42). -/
def safePattern (hb : BitVec 4) : Bool := hb == Hb.FWD || hb == Hb.BWD || hb == Hb.RCH

/-- The LED lines an indicator code selects: cfg.LED_MAP (R39), for the three codes of R43; code 11 "is never driven". -/
def ledLines (cfg : Config) (ind : BitVec 2) : Option Nat :=
  if ind = Ind.NEU then some cfg.LED_MAP.neutral
  else if ind = Ind.FWD then some cfg.LED_MAP.forward
  else if ind = Ind.BWD then some cfg.LED_MAP.backward
  else none

end Sys2Proof.Machine
end

