-- ==== Sys2Proof/Machine/Operands.lean ====
section
/-! DEFINITION. The one operand form, the count of CTICK, STICK and MSTEP (spec/30_encoding.md R83, R86, R88). -/

namespace Sys2Proof.Machine

/-- A count word: "exactly `count` consecutive single steps of that agent, with no step of another agent between them"
(R86). "A zero count on CTICK, STICK or MSTEP is reserved" (R88); the decoder never gives it, and an operation handed
it directly is refused under the decoder's own name (log entry 11). -/
def counted (single : State → Result) (n : Nat) (s : State) : Result :=
  if n = 0 then .refused (.illegal .zeroCount) else repeatStep single n s

end Sys2Proof.Machine
end

