-- ==== Sys2Proof/Machine/SpeedTranslator.lean ====
section
/-! DEFINITION. Speed translator, a pure function (spec/41_speed_translator.md R141 to R148). -/

namespace Sys2Proof.Machine

/-- `floor((2 * a + D) / (2 * D))`, the magnitude part of `round_div` (R145). -/
def roundMag (a D : Nat) : Nat := (2 * a + D) / (2 * D)

/-- `round_div(d, D) = sign(d) * floor((2 * abs(d) + D) / (2 * D))` (R145). -/
def roundDiv (d : Int) (D : Nat) : Int := d.sign * (roundMag d.natAbs D : Int)

/-- Stage 2: `clamp(w, CLAMP_LO, CLAMP_HI) = min(max(w, CLAMP_LO), CLAMP_HI)` (R143). -/
def clampWidth (cfg : Config) (w : Nat) : Nat := min (max w cfg.CLAMP_LO) cfg.CLAMP_HI

/-- Stage 3: the distance from the centre, 0 inside the inclusive deadband (R144). -/
def centred (cfg : Config) (c : Nat) : Int :=
  let d : Int := (c : Int) - (cfg.CENTER : Int)
  if d.natAbs ≤ cfg.DEADBAND then 0 else d

/-- The speed of a pulse width as a mathematical integer: "All intermediate values are mathematical integers" (R146). -/
def speedOfWidth (cfg : Config) (w : Nat) : Int :=
  if w ≤ cfg.TOL_LO ∨ cfg.TOL_HI ≤ w then 0
  else roundDiv (centred cfg (clampWidth cfg w)) cfg.DIVISOR

/-- `translate(w: u16) : s8` (R146): "The result fits s8". -/
def translate (cfg : Config) (w : CapTicks) : Speed := BitVec.ofInt 8 (speedOfWidth cfg w.toNat)

end Sys2Proof.Machine
end

