-- ==== Sys2Proof/Machine/ControlLoop.lean ====
section
/-! DEFINITION. Control loop: MSTEP and its sub-actions MTAKE, MSPD (spec/44_control_loop.md). -/

namespace Sys2Proof.Machine

/-- MTAKE's writes when `ready = 1` (R203): the sample is read in the same step as its flag is cleared. -/
def Cells.takeSample (c : Cells) (w : CapTicks) : Cells :=
  { c with mev := some (.sample w), ready := false, mpc := Mpc.SPEED }

/-- MTAKE's writes when only `tmo = 1` (R203). -/
def Cells.takeTimeout (c : Cells) : Cells :=
  { c with mev := some .timeout, tmo := false, mpc := Mpc.SPEED }

/-- The speed an event commands: `translate` of a sample, 0 for a timeout (R204, R148). -/
def eventSpeed (cfg : Config) : Event → Speed
  | .sample w => translate cfg w
  | .timeout => 0#8

/-- MSPD's writes (R204): the old speed is kept in `prev`, the new one is written whole. -/
def Cells.publish (c : Cells) (v : Speed) : Cells :=
  { c with prev := c.ms, ms := v, mev := none, mpc := Mpc.IND }

/-- MTAKE (R203): "when both flags are 1, the sample is taken first" (R206). With neither flag set it is not triggered
(R85), and the rule gives no effect (log entry 8). A sample that has no value faults on the read (I11). -/
def execMtake (s : State) : Result :=
  if s.st.ready = true then
    match s.st.sample with
    | some w => .next (s.withSt (s.st.takeSample w))
    | none => .fault .sampleNoValue
  else if s.st.tmo = true then .next (s.withSt s.st.takeTimeout)
  else .refused .noEventPending

/-- MSPD (R204). "`st.mev` holds a value exactly while `st.mpc = SPEED`" (R205); with none there is no case (log entry 9). -/
def execMspd (s : State) : Result :=
  match s.st.mev with
  | some e => .next (s.withSt (s.st.publish (eventSpeed s.cfg e)))
  | none => .fault .eventNoValue

/-- One single step of MSTEP (R201): MTAKE or a spin (R202) at POLL, MSPD at SPEED, MIND at IND. -/
def mstepOnce (s : State) : Result :=
  if s.st.mpc = Mpc.POLL then
    if s.st.eventPending = true then service (.mstep 1) .mtake execMtake s
    else .next (commit (.mstep 1) none s)
  else if s.st.mpc = Mpc.SPEED then service (.mstep 1) .mspd execMspd s
  else if s.st.mpc = Mpc.IND then service (.mstep 1) .mind execMind s
  else .refused .sequencerReserved

/-- MSTEP (R201): `n` single steps. -/
def execMstep (n : Nat) (s : State) : Result := counted mstepOnce n s

end Sys2Proof.Machine
end

