-- ==== Sys2Proof/Machine/PulseDecoder.lean ====
section
/-! DEFINITION. Pulse decoder: RISE, FALL, CTICK and the handlers CAPR, CAPF, TMO (spec/40_pulse_decoder.md). -/

namespace Sys2Proof.Machine

/-- The level of the command input line becomes `b` (R111, R112). -/
def Cells.setLvl (c : Cells) (b : Bool) : Cells := { c with lvl := b }

/-- CAPR's writes (R117): "resets the capture timer to zero", "restarts it", "transitions to WaitingForFallingEdge". -/
def Cells.captureRise (c : Cells) : Cells :=
  { c with cap_cnt := 0#16, cap_run := true, phase := .WF }

/-- CAPF's writes (R118): the counter's value at the edge is the sample, an older one is overwritten (R119). -/
def Cells.captureFall (c : Cells) : Cells :=
  { c with sample := some c.cap_cnt, ready := true, phase := .WR, cap_cnt := 0#16, cap_run := true }

/-- TMO's writes (R120): "it stops itself", "sets TimeoutEvent", "reverts the expected phase to WaitingForRisingEdge". -/
def Cells.timeOut (c : Cells) : Cells := { c with cap_run := false, tmo := true, phase := .WR }

/-- The capture/timeout counter counts one tick (R113). -/
def Cells.countCapture (c : Cells) : Cells := { c with cap_cnt := c.cap_cnt + 1#16 }

/-- CAPR (R117), the edge-capture handler on a captured rising edge. -/
def execCapr (s : State) : Result := .next (s.withSt s.st.captureRise)

/-- CAPF (R118), the edge-capture handler on a captured falling edge. -/
def execCapf (s : State) : Result := .next (s.withSt s.st.captureFall)

/-- TMO (R120), the capture-timeout handler. -/
def execTmo (s : State) : Result := .next (s.withSt s.st.timeOut)

/-- RISE (R111): refused when the line is high; else the level, and CAPR if rising edges are selected (R114). -/
def execRise (s : State) : Result :=
  if s.st.lvl = true then .refused .levelAlreadyHigh
  else if s.st.phase = .WR then service .rise .capr execCapr (s.withSt (s.st.setLvl true))
  else .next (commit .rise none (s.withSt (s.st.setLvl true)))

/-- FALL (R112): refused when the line is low; else the level, and CAPF if falling edges are selected (R114). -/
def execFall (s : State) : Result :=
  if s.st.lvl = false then .refused .levelAlreadyLow
  else if s.st.phase = .WF then service .fall .capf execCapf (s.withSt (s.st.setLvl false))
  else .next (commit .fall none (s.withSt (s.st.setLvl false)))

/-- One single step of CTICK (R113): the counter counts while it runs, and the tick that reaches cfg.TMO_TICKS runs TMO
in the same step. A stopped counter changes nothing (R116). -/
def ctickOnce (s : State) : Result :=
  if s.st.cap_run = true then
    if s.st.countCapture.cap_cnt.toNat = s.cfg.TMO_TICKS then
      service (.ctick 1) .tmo execTmo (s.withSt s.st.countCapture)
    else .next (commit (.ctick 1) none (s.withSt s.st.countCapture))
  else .next (commit (.ctick 1) none s)

/-- CTICK (R113): `n` single steps. -/
def execCtick (n : Nat) (s : State) : Result := counted ctickOnce n s

end Sys2Proof.Machine
end

