-- ==== Sys2Proof/Machine/Reset.lean ====
section
/-! DEFINITION. RESET (spec/70_reset_and_hazards.md R261). -/

namespace Sys2Proof.Machine

/-- RESET's writes: "every cell except `lvl`" at its value of R52 (R261, conflict C15). -/
def Cells.resetKeepLvl (c : Cells) : Cells := Cells.coreStart c.lvl

/-- RESET (R261): one atomic step, never refused. -/
def execReset (s : State) : Result := .next (commit .reset none (s.withSt s.st.resetKeepLvl))

end Sys2Proof.Machine
end

