-- ==== Sys2Proof/Machine/SwitchingScheduler.lean ====
section
/-! DEFINITION. Switching scheduler: STICK and the handlers CMPA, CMPB (spec/42_switching_scheduler.md). -/

namespace Sys2Proof.Machine

/-- CMPA's writes (R166): one read `v` of MotorSpeed gives both the pattern and the threshold; "the zero case is a no-op"
on the pattern. -/
def Cells.startPeriod (c : Cells) : Cells :=
  let v := c.ms.toInt
  { c with
    hb := if 0 < v then Hb.FWD else if v < 0 then Hb.BWD else c.hb
    thr := BitVec.ofNat 8 v.natAbs }

/-- CMPB's write (R168): the whole recharge pattern, "unconditionally, regardless of commanded direction". -/
def Cells.recharge (c : Cells) : Cells := { c with hb := Hb.RCH }

/-- Compare A match: the counter wraps to 0 (R162, R164). -/
def Cells.wrapSwitch (c : Cells) : Cells := { c with sw_cnt := 0#8 }

/-- The switching counter counts one tick (R162). -/
def Cells.countSwitch (c : Cells) : Cells := { c with sw_cnt := c.sw_cnt + 1#8 }

/-- CMPA (R166), the period-start handler. The timer halt inside it "neither drops nor adds a tick" (R167). -/
def execCmpa (s : State) : Result := .next (s.withSt s.st.startPeriod)

/-- CMPB (R168), the recharge handler. -/
def execCmpb (s : State) : Result := .next (s.withSt s.st.recharge)

/-- One single step of STICK (R162): compare A at cfg.SW_TOP, else count and compare B at `thr` (R164, R165). -/
def stickOnce (s : State) : Result :=
  if s.st.sw_cnt.toNat = s.cfg.SW_TOP then
    service (.stick 1) .cmpa execCmpa (s.withSt s.st.wrapSwitch)
  else if s.st.countSwitch.sw_cnt = s.st.thr then
    service (.stick 1) .cmpb execCmpb (s.withSt s.st.countSwitch)
  else .next (commit (.stick 1) none (s.withSt s.st.countSwitch))

/-- STICK (R162): `n` single steps. -/
def execStick (n : Nat) (s : State) : Result := counted stickOnce n s

end Sys2Proof.Machine
end

