-- ==== Sys2Proof/Machine/Dispatch.lean ====
section
/-! DEFINITION. The meaning of every operation, one arm a constructor. -/

namespace Sys2Proof.Machine

/-- One operation: a stimulus with the handler it triggers, or a handler action by itself (spec/30_encoding.md R80). -/
def exec (i : Instr) (s : State) : Host.Outcome State Fault Refusal :=
  match i with
  | .rise => Sys2Proof.Machine.execRise s
  | .fall => Sys2Proof.Machine.execFall s
  | .ctick n => Sys2Proof.Machine.execCtick n s
  | .stick n => Sys2Proof.Machine.execStick n s
  | .mstep n => Sys2Proof.Machine.execMstep n s
  | .reset => Sys2Proof.Machine.execReset s
  | .capr => Sys2Proof.Machine.execCapr s
  | .capf => Sys2Proof.Machine.execCapf s
  | .tmo => Sys2Proof.Machine.execTmo s
  | .cmpa => Sys2Proof.Machine.execCmpa s
  | .cmpb => Sys2Proof.Machine.execCmpb s
  | .mtake => Sys2Proof.Machine.execMtake s
  | .mspd => Sys2Proof.Machine.execMspd s
  | .mind => Sys2Proof.Machine.execMind s

end Sys2Proof.Machine
end

