-- ==== Sys2Proof/Machine/Step.lean ====
section
/-! DEFINITION. One step of the machine: the next word of the trace is decoded and run (spec/30_encoding.md R92, R95). -/

namespace Sys2Proof.Machine

/-- One step: the next stimulus word, all its single steps (R86). A word that does not decode is refused (R92); where the
trace is used up there is no step (R96, log entry 1). -/
def step (s : State) : Host.Outcome State Fault Refusal :=
  match fetch s with
  | none => .refused .endOfTrace
  | some (w, s1) =>
    match decode w with
    | .stim i => exec i s1
    | .illegal why => .refused (.illegal why)

/-- The machine with one word placed at the head of its trace, so that the very next step decodes and runs it. Nothing
else changes: what the trace held follows it (log entries 1, 14). -/
def State.withFetchWord (s : State) (_nbits w : Nat) : State :=
  { s with trace := BitVec.ofNat 16 w :: s.trace }

end Sys2Proof.Machine
end

