-- ==== Sys2Proof/Machine/Agents.lean ====
section
/-! DEFINITION. Agents, interrupt sources and execution contexts (spec/00_scope.md R15, spec/60_exceptions.md R231, R241). -/

namespace Sys2Proof.Machine

/-- The five agents of R15. -/
inductive Agent where
  | ENV_IN
  | CAP_CLK
  | SW_CLK
  | MAIN
  | RST
deriving DecidableEq, Repr

/-- The agent whose step an operation is; handler actions belong to none: "Interrupt handlers are not agents" (R15). -/
def agentOf : Instr → Option Agent
  | .rise => some .ENV_IN
  | .fall => some .ENV_IN
  | .ctick _ => some .CAP_CLK
  | .stick _ => some .SW_CLK
  | .mstep _ => some .MAIN
  | .reset => some .RST
  | .capr => none
  | .capf => none
  | .tmo => none
  | .cmpa => none
  | .cmpb => none
  | .mtake => none
  | .mspd => none
  | .mind => none

/-- The four interrupt sources of R231. -/
inductive Source where
  | edgeCapture
  | captureTimeout
  | periodStart
  | midPeriod
deriving DecidableEq, Repr

/-- The source an interrupt handler serves (R231); the other operations are no interrupt handlers. -/
def sourceOf : Instr → Option Source
  | .rise => none
  | .fall => none
  | .ctick _ => none
  | .stick _ => none
  | .mstep _ => none
  | .reset => none
  | .capr => some .edgeCapture
  | .capf => some .edgeCapture
  | .tmo => some .captureTimeout
  | .cmpa => some .periodStart
  | .cmpb => some .midPeriod
  | .mtake => none
  | .mspd => none
  | .mind => none

/-- The two execution contexts of R241. -/
inductive Context where
  | mainLoop
  | interrupt
deriving DecidableEq, Repr

/-- The context a handler action runs in (R241); "The stimulus steps themselves" are in neither. -/
def contextOf : Instr → Option Context
  | .rise => none
  | .fall => none
  | .ctick _ => none
  | .stick _ => none
  | .mstep _ => none
  | .reset => none
  | .capr => some .interrupt
  | .capf => some .interrupt
  | .tmo => some .interrupt
  | .cmpa => some .interrupt
  | .cmpb => some .interrupt
  | .mtake => some .mainLoop
  | .mspd => some .mainLoop
  | .mind => some .mainLoop

end Sys2Proof.Machine
end

