-- ==== Sys2Proof/Machine/Assembler.lean ====
section
/-! DEFINITION. Assembler syntax and pseudo-operations of traces (spec/30_encoding.md R91, R93). -/

namespace Sys2Proof.Machine

/-- One line of a trace: an operation of R91 or a pseudo-operation of R93. -/
inductive AsmLine where
  | rise
  | fall
  | ctick (n : Nat)
  | stick (n : Nat)
  | mstep (n : Nat)
  | reset
  | pulse (w : Nat)
  | low (l : Nat)
  | frame (w p : Nat)
  | wait (n : Nat)
  | period
  | process
deriving DecidableEq, Repr

/-- "For `N <= 4095` it emits one word. For a larger `N` it emits `floor(N / 4095)` words with count 4095, then one word
with count `N mod 4095` if that is not 0" (R91). -/
def splitCount (op : Nat → Instr) (n : Nat) : List Instr :=
  List.replicate (n / 4095) (op 4095) ++ if n % 4095 = 0 then [] else [op (n % 4095)]

/-- A count line: "for any `N >= 1`" (R91). -/
def countLine (op : Nat → Instr) (n : Nat) : Option (List Instr) :=
  if 1 ≤ n then some (splitCount op n) else none

/-- The operations of a line, pseudo-operations expanded by the table of R93 ("integers of at least 1", `P > W`). -/
def AsmLine.operations (cfg : Config) : AsmLine → Option (List Instr)
  | .rise => some [.rise]
  | .fall => some [.fall]
  | .ctick n => countLine .ctick n
  | .stick n => countLine .stick n
  | .mstep n => countLine .mstep n
  | .reset => some [.reset]
  | .pulse w => (countLine .ctick w).map fun ticks => .rise :: ticks ++ [.fall]
  | .low l => countLine .ctick l
  | .frame w p =>
    if 1 ≤ w ∧ w < p then
      some (.rise :: splitCount .ctick w ++ .fall :: splitCount .ctick (p - w))
    else none
  | .wait n => countLine .ctick n
  | .period => countLine .stick (cfg.SW_TOP + 1)
  | .process => countLine .mstep 3

/-- The words of a line. -/
def AsmLine.assemble (cfg : Config) (l : AsmLine) : Option (List Word) :=
  (l.operations cfg).map (List.map encode)

/-- The words of lines in order; none where a line has no expansion. -/
def assembleLines (cfg : Config) : List AsmLine → Option (List Word)
  | [] => some []
  | l :: ls =>
    match l.assemble cfg, assembleLines cfg ls with
    | some ws, some rest => some (ws ++ rest)
    | some _, none => none
    | none, some _ => none
    | none, none => none

/-- Characters that separate tokens. -/
def isBlankChar (c : Char) : Bool := c == ' ' || c == '\t' || c == '\r'

/-- The token collected so far, if it is not empty. -/
def flushToken (cur : List Char) : List (List Char) :=
  if cur.isEmpty then [] else [cur.reverse]

/-- Splits a line at blanks; a comma is a token of its own, and "A `;` starts a comment that runs to the end of the line"
(R91). -/
def tokensFrom : List Char → List Char → List (List Char)
  | [], cur => flushToken cur
  | c :: cs, cur =>
    if c == ';' then flushToken cur
    else if isBlankChar c then flushToken cur ++ tokensFrom cs []
    else if c == ',' then flushToken cur ++ [','] :: tokensFrom cs []
    else tokensFrom cs (c :: cur)

/-- The value of a digit in base 10 or 16. -/
def digitValue (base : Nat) (c : Char) : Option Nat :=
  let v :=
    if 48 ≤ c.toNat ∧ c.toNat ≤ 57 then c.toNat - 48
    else if 97 ≤ c.toNat ∧ c.toNat ≤ 102 then c.toNat - 87
    else if 65 ≤ c.toNat ∧ c.toNat ≤ 70 then c.toNat - 55
    else 16
  if v < base then some v else none

/-- The value of digits after `acc`. -/
def digitsValue (base : Nat) : List Char → Nat → Option Nat
  | [], acc => some acc
  | c :: cs, acc =>
    match digitValue base c with
    | some v => digitsValue base cs (acc * base + v)
    | none => none

/-- A decimal operand, the only form a pseudo-operation takes: "`W`, `L`, `P` and `N` are decimal integers" (R93). -/
def decimalOf : List Char → Option Nat
  | [] => none
  | ds => digitsValue 10 ds 0

/-- A "decimal or `0x` hexadecimal operand" of an operation (R91). -/
def numberOf : List Char → Option Nat
  | ['0', 'x'] => none
  | '0' :: 'x' :: ds => digitsValue 16 ds 0
  | ds => decimalOf ds

/-- The mnemonics without operand (R91, R93). -/
def plainLine (m : List Char) : Option AsmLine :=
  if m = ['r', 'i', 's', 'e'] then some .rise
  else if m = ['f', 'a', 'l', 'l'] then some .fall
  else if m = ['r', 'e', 's', 'e', 't'] then some .reset
  else if m = ['p', 'e', 'r', 'i', 'o', 'd'] then some .period
  else if m = ['p', 'r', 'o', 'c', 'e', 's', 's'] then some .process
  else none

/-- The mnemonics with one operand: operations (R91) and pseudo-operations (R93), each with its own form of number. -/
def operandLine (m a : List Char) : Option AsmLine :=
  if m = ['c', 't', 'i', 'c', 'k'] then (numberOf a).map .ctick
  else if m = ['s', 't', 'i', 'c', 'k'] then (numberOf a).map .stick
  else if m = ['m', 's', 't', 'e', 'p'] then (numberOf a).map .mstep
  else if m = ['p', 'u', 'l', 's', 'e'] then (decimalOf a).map .pulse
  else if m = ['l', 'o', 'w'] then (decimalOf a).map .low
  else if m = ['w', 'a', 'i', 't'] then (decimalOf a).map .wait
  else none

/-- A line of text: no operation for a blank or comment line, one operation, or none of the syntax (log entry 16). -/
def parseLine (text : List Char) : Option (List AsmLine) :=
  match tokensFrom text [] with
  | [] => some []
  | [m] => (plainLine m).map fun l => [l]
  | [m, a] => (operandLine m a).map fun l => [l]
  | [m, a, comma, b] =>
    if m = ['f', 'r', 'a', 'm', 'e'] ∧ comma = [','] then
      (decimalOf a).bind fun w => (decimalOf b).map fun p => [.frame w p]
    else none
  | _ => none

/-- The words of a trace written as lines of text; none where a line is outside the syntax. -/
def assembleText (cfg : Config) : List (List Char) → Option (List Word)
  | [] => some []
  | t :: ts =>
    (parseLine t).bind fun ls =>
      (assembleLines cfg ls).bind fun ws => (assembleText cfg ts).map fun rest => ws ++ rest

end Sys2Proof.Machine
end

