-- ==== Sys2Proof/Machine/Invariant.lean ====
section
/-! DEFINITION. Which configurations and which cells are legal (spec/00_scope.md R9, spec/10_state.md R53). -/

namespace Sys2Proof.Machine

/-- The constraints R9 lists: "A model refuses a configuration that breaks one". -/
abbrev MeetsR9 (cfg : Config) : Prop :=
  (cfg.TOL_LO < cfg.CLAMP_LO ∧ cfg.CLAMP_LO + cfg.DEADBAND ≤ cfg.CENTER) ∧
  (cfg.CENTER + cfg.DEADBAND ≤ cfg.CLAMP_HI ∧ cfg.CLAMP_HI < cfg.TOL_HI) ∧
  1 ≤ cfg.DIVISOR ∧
  (cfg.TOL_HI < cfg.TMO_TICKS ∧ cfg.TMO_TICKS ≤ 2 ^ cfg.CAP_W - 1) ∧
  (cfg.SPEED_MAX ≤ cfg.SW_TOP ∧ cfg.SW_TOP ≤ 2 ^ cfg.SW_W - 1)

/-- What R9's list leaves out and the cells need (log entry 4, DEDUCED): the widths are those of R20's table, SPEED_MAX is
the 100 of R9 and R20, and the ends of the clamp band translate to no more than it ("in [-100, 100]", R141). -/
abbrev FitsCells (cfg : Config) : Prop :=
  cfg.CAP_W = 16 ∧ cfg.SPEED_W = 8 ∧ cfg.SW_W = 8 ∧ cfg.SPEED_MAX = 100 ∧
  roundMag (cfg.CLAMP_HI - cfg.CENTER) cfg.DIVISOR ≤ cfg.SPEED_MAX ∧
  roundMag (cfg.CENTER - cfg.CLAMP_LO) cfg.DIVISOR ≤ cfg.SPEED_MAX

/-- A configuration `launch` accepts. -/
abbrev ValidConfig (cfg : Config) : Prop := MeetsR9 cfg ∧ FitsCells cfg

/-- A taken event carries a width the decoder can record (R53 clause 5). -/
def Event.inRange (cfg : Config) : Event → Bool
  | .sample w => decide (w.toNat < cfg.TMO_TICKS)
  | .timeout => true

/-- R53 clause 1. -/
abbrev Cells.SpeedsInRange (cfg : Config) (c : Cells) : Prop :=
  (-100 ≤ c.ms.toInt ∧ c.ms.toInt ≤ 100) ∧ (-100 ≤ c.prev.toInt ∧ c.prev.toInt ≤ 100) ∧
  c.thr.toNat ≤ 100 ∧ c.sw_cnt.toNat ≤ cfg.SW_TOP

/-- R53 clause 2. -/
abbrev Cells.CodesLegal (c : Cells) : Prop :=
  (c.hb = Hb.FWD ∨ c.hb = Hb.BWD ∨ c.hb = Hb.RCH) ∧
  (c.ind = Ind.NEU ∨ c.ind = Ind.FWD ∨ c.ind = Ind.BWD) ∧
  (c.mpc = Mpc.POLL ∨ c.mpc = Mpc.SPEED ∨ c.mpc = Mpc.IND)

/-- R53 clause 3. -/
abbrev Cells.CounterLegal (cfg : Config) (c : Cells) : Prop :=
  c.cap_cnt.toNat ≤ cfg.TMO_TICKS ∧
  (c.cap_run = true → c.cap_cnt.toNat < cfg.TMO_TICKS) ∧
  (c.cap_run = false → c.cap_cnt.toNat = cfg.TMO_TICKS ∧ c.phase = .WR)

/-- R53 clause 4. -/
abbrev Cells.SampleLegal (cfg : Config) (c : Cells) : Prop :=
  c.ready = true → c.sample.any (fun w => decide (w.toNat < cfg.TMO_TICKS)) = true

/-- R53 clause 5. -/
abbrev Cells.EventLegal (cfg : Config) (c : Cells) : Prop :=
  (c.mev.isSome = true ↔ c.mpc = Mpc.SPEED) ∧ c.mev.all (Event.inRange cfg) = true

/-- R53 clause 6, the recharge invariant of R170. -/
abbrev Cells.RechargeLegal (c : Cells) : Prop :=
  (c.thr.toNat ≤ c.sw_cnt.toNat → c.hb = Hb.RCH) ∧
  (c.sw_cnt.toNat < c.thr.toNat → c.hb = Hb.FWD ∨ c.hb = Hb.BWD)

/-- R53 clause 7, the indicator invariant of R197. -/
abbrev Cells.IndicatorLegal (c : Cells) : Prop :=
  c.mpc ≠ Mpc.IND → c.ind = signCode c.ms.toInt

/-- INV of R53. -/
abbrev Cells.INV (cfg : Config) (c : Cells) : Prop :=
  c.SpeedsInRange cfg ∧ c.CodesLegal ∧ c.CounterLegal cfg ∧ c.SampleLegal cfg ∧ c.EventLegal cfg ∧
  c.RechargeLegal ∧ c.IndicatorLegal

/-- INV without its clause 7. -/
abbrev Cells.INV6 (cfg : Config) (c : Cells) : Prop :=
  c.SpeedsInRange cfg ∧ c.CodesLegal ∧ c.CounterLegal cfg ∧ c.SampleLegal cfg ∧ c.EventLegal cfg ∧
  c.RechargeLegal

/-- What R197's induction uses and R53 does not list (log entry 12): between MSPD and MIND the indicator still shows the
speed that `prev` keeps. -/
abbrev Cells.IndicatorWaits (c : Cells) : Prop :=
  c.mpc = Mpc.IND → c.ind = signCode c.prev.toInt

/-- A machine with a configuration `launch` accepts and cells that satisfy INV. -/
abbrev State.Inv (s : State) : Prop := ValidConfig s.cfg ∧ s.st.INV s.cfg

/-- The inductive strengthening: INV, and the indicator of a main loop at IND waits for its MIND (log entry 12). -/
abbrev State.ReachInv (s : State) : Prop := s.Inv ∧ s.st.IndicatorWaits

/-- A machine with a configuration `launch` accepts and cells that satisfy clauses 1 to 6 of INV, which are inductive by
themselves: every state of a run from any launch state satisfies it (log entry 12). `State.Inv` implies it. -/
abbrev State.Inv6 (s : State) : Prop := ValidConfig s.cfg ∧ s.st.INV6 s.cfg

end Sys2Proof.Machine
end

