-- ==== Sys2Proof/Machine/Launch.lean ====
section
/-! DEFINITION. Launching the core from a configuration, a launch state and a trace (spec/10_state.md R55, spec/70 R262). -/

namespace Sys2Proof.Machine

/-- Starts a run: "A launch state is the state a run starts from. It is either the core-start state of rule R52 or a state
that satisfies INV (rule R53). A model refuses a launch state that breaks INV" (R55), and a configuration that breaks
R9's constraints (I16). The startup collaborator of R262 is its caller: only its end state is modelled (R263). -/
def launch (cfg : Config) (c : Cells) (trace : List Word) : Result :=
  if MeetsR9 cfg then
    if FitsCells cfg then
      if c = Cells.coreStart cfg.CMD_LEVEL0 ∨ c.INV cfg then
        .next { cfg := cfg, st := c, trace := trace, log := [] }
      else .refused .badLaunchState
    else .refused .configBeyondCells
  else .refused .badConfig

end Sys2Proof.Machine
end

