-- ==== Sys2Proof/Machine/Run.lean ====
section
/-! DEFINITION. The run of a trace, its history and its observation (spec/30_encoding.md R89, R95 to R97). -/

namespace Sys2Proof.Machine

/-- How a run ended (R95, R96). -/
inductive Verdict where
  /-- "It is *complete* if no word was refused." -/
  | complete
  /-- It "stops at the first refusal". -/
  | refusedAt (why : Refusal)
  /-- A step faulted; no run from a launch state does. -/
  | faulted (why : Fault)
deriving DecidableEq, Repr

/-- At most `n` words of the trace, the last state and how the run ended. -/
def runWords : Nat → State → State × Verdict
  | 0, s => (s, .complete)
  | n + 1, s =>
    match step s with
    | .next t => runWords n t
    | .refused why => (s, .refusedAt why)
    | .fault why => (s, .faulted why)

/-- "The run applies each word's steps in order [...] and stops at the first refusal" (R95). Its last state is the state
before the word that was refused. -/
def run (s : State) : State × Verdict := runWords s.trace.length s

/-- The history words of one atomic step, in the order R89 appends them. -/
def StepRecord.words (r : StepRecord) : List Word := r.stim :: r.act.toList

/-- The run's history so far, oldest word first (R89). -/
def State.history (s : State) : List Word := s.log.reverse.flatMap StepRecord.words

/-- The run's observation so far, the ports `(hb, ind)` after each step, oldest first (R97). -/
def State.observation (s : State) : List (BitVec 4 × BitVec 2) :=
  s.log.reverse.map fun r => (r.hb, r.ind)

end Sys2Proof.Machine
end

