-- ==== Sys2Proof/Safety.lean ====
section
/-! DEFINITION. What counts as a safe run, in the terms the statements use. -/

namespace Sys2Proof.Machine

/-- A change of the output pattern the core may make: none, or one of "FWD to RCH, BWD to RCH, RCH to FWD and RCH to
BWD" (R173). -/
def allowedChange (before after : BitVec 4) : Bool :=
  before == after || (before == Hb.RCH && (after == Hb.FWD || after == Hb.BWD)) ||
    ((before == Hb.FWD || before == Hb.BWD) && after == Hb.RCH)

/-- Every change of the pattern along a list of patterns, newest first, is allowed. -/
def allowedChanges : List (BitVec 4) → Bool
  | [] => true
  | [_] => true
  | newer :: older :: rest => allowedChange older newer && allowedChanges (older :: rest)

/-- The main-loop steps an operation takes (R86). -/
def mainSteps : Instr → Nat
  | .rise => 0
  | .fall => 0
  | .ctick _ => 0
  | .stick _ => 0
  | .mstep n => n
  | .reset => 0
  | .capr => 0
  | .capf => 0
  | .tmo => 0
  | .cmpa => 0
  | .cmpb => 0
  | .mtake => 0
  | .mspd => 0
  | .mind => 0

/-- The capture ticks an operation takes (R86). -/
def captureSteps : Instr → Nat
  | .rise => 0
  | .fall => 0
  | .ctick n => n
  | .stick _ => 0
  | .mstep _ => 0
  | .reset => 0
  | .capr => 0
  | .capf => 0
  | .tmo => 0
  | .cmpa => 0
  | .cmpb => 0
  | .mtake => 0
  | .mspd => 0
  | .mind => 0

/-- The switching ticks an operation takes (R86). -/
def switchSteps : Instr → Nat
  | .rise => 0
  | .fall => 0
  | .ctick _ => 0
  | .stick n => n
  | .mstep _ => 0
  | .reset => 0
  | .capr => 0
  | .capf => 0
  | .tmo => 0
  | .cmpa => 0
  | .cmpb => 0
  | .mtake => 0
  | .mspd => 0
  | .mind => 0

/-- Operations one after another, stopping at the first that has no next state. -/
def execAll : List Instr → State → Result
  | [], s => .next s
  | i :: is, s => andThen (exec i s) (execAll is)

/-- Weak fairness of the main loop (R279): "in every infinite run the MAIN agent takes infinitely many steps", as a
property of an infinite sequence of stimuli (log entry 17). -/
def FairToMain (stimuli : Nat → Instr) : Prop :=
  ∀ k, ∃ m, k ≤ m ∧ 1 ≤ mainSteps (stimuli m)

/-- The single steps a stimulus takes: its count, or 1 (R86). -/
def singleSteps : Instr → Nat
  | .rise => 1
  | .fall => 1
  | .ctick n => n
  | .stick n => n
  | .mstep n => n
  | .reset => 1
  | .capr => 0
  | .capf => 0
  | .tmo => 0
  | .cmpa => 0
  | .cmpb => 0
  | .mtake => 0
  | .mspd => 0
  | .mind => 0

/-- The decoder's cells (R54, R241), equal in both. -/
def sameDecoder (a b : Cells) : Prop :=
  a.phase = b.phase ∧ a.cap_cnt = b.cap_cnt ∧ a.cap_run = b.cap_run ∧ a.sample = b.sample

/-- The switching scheduler's cells (R54, R241), equal in both. -/
def sameScheduler (a b : Cells) : Prop := a.sw_cnt = b.sw_cnt ∧ a.thr = b.thr ∧ a.hb = b.hb

/-- The main loop's own cells (R54, R241), equal in both. -/
def sameMainLoop (a b : Cells) : Prop :=
  a.ms = b.ms ∧ a.prev = b.prev ∧ a.mev = b.mev ∧ a.mpc = b.mpc ∧ a.ind = b.ind

/-- The event flags, which both contexts write (R54), equal in both. -/
def sameFlags (a b : Cells) : Prop := a.ready = b.ready ∧ a.tmo = b.tmo

/-- The cells an operation never writes, by the column "written by" of R20's table, equal before (`a`) and after (`b`). A
stimulus counts with the handler it may run. -/
def ownedUnchanged (a b : Cells) : Instr → Prop
  | .rise => sameScheduler a b ∧ sameMainLoop a b ∧ sameFlags a b ∧ a.sample = b.sample
  | .fall => sameScheduler a b ∧ sameMainLoop a b ∧ a.tmo = b.tmo
  | .ctick _ => sameScheduler a b ∧ sameMainLoop a b ∧ a.ready = b.ready ∧ a.sample = b.sample ∧ a.lvl = b.lvl
  | .stick _ => sameDecoder a b ∧ sameMainLoop a b ∧ sameFlags a b ∧ a.lvl = b.lvl
  | .mstep _ => sameDecoder a b ∧ sameScheduler a b ∧ a.lvl = b.lvl
  | .reset => a.lvl = b.lvl
  | .capr => sameScheduler a b ∧ sameMainLoop a b ∧ sameFlags a b ∧ a.sample = b.sample ∧ a.lvl = b.lvl
  | .capf => sameScheduler a b ∧ sameMainLoop a b ∧ a.tmo = b.tmo ∧ a.lvl = b.lvl
  | .tmo =>
    sameScheduler a b ∧ sameMainLoop a b ∧ a.ready = b.ready ∧ a.sample = b.sample ∧ a.lvl = b.lvl ∧
      a.cap_cnt = b.cap_cnt
  | .cmpa => sameDecoder a b ∧ sameMainLoop a b ∧ sameFlags a b ∧ a.lvl = b.lvl ∧ a.sw_cnt = b.sw_cnt
  | .cmpb =>
    sameDecoder a b ∧ sameMainLoop a b ∧ sameFlags a b ∧ a.lvl = b.lvl ∧ a.sw_cnt = b.sw_cnt ∧ a.thr = b.thr
  | .mtake =>
    sameDecoder a b ∧ sameScheduler a b ∧ a.lvl = b.lvl ∧ a.ms = b.ms ∧ a.prev = b.prev ∧ a.ind = b.ind
  | .mspd => sameDecoder a b ∧ sameScheduler a b ∧ sameFlags a b ∧ a.lvl = b.lvl ∧ a.ind = b.ind
  | .mind =>
    sameDecoder a b ∧ sameScheduler a b ∧ sameFlags a b ∧ a.lvl = b.lvl ∧ a.ms = b.ms ∧ a.prev = b.prev ∧
      a.mev = b.mev

/-- The handler codes a single step of a stimulus may record (R231, R236): "a RISE or FALL triggers at most its capture
handler; a CTICK triggers at most TMO; a STICK triggers CMPA or CMPB, never both; an MSTEP runs exactly one main-loop
sub-action, or a spin". Handler actions record nothing of their own. -/
def handlerCodes : Instr → List Word
  | .rise => [0x8000#16]
  | .fall => [0x9000#16]
  | .ctick _ => [0xA000#16]
  | .stick _ => [0xB000#16, 0xC000#16]
  | .mstep _ => [0xD000#16, 0xE000#16, 0xF000#16]
  | .reset => []
  | .capr => []
  | .capf => []
  | .tmo => []
  | .cmpa => []
  | .cmpb => []
  | .mtake => []
  | .mspd => []
  | .mind => []

/-- The stimulus word a single step records, "with a count of 1 for count operations: 0x3001, 0x4001 or 0x5001" (R89);
handler actions record none of their own. -/
def stimulusRecord : Instr → Option Word
  | .rise => some 0x1000#16
  | .fall => some 0x2000#16
  | .ctick _ => some 0x3001#16
  | .stick _ => some 0x4001#16
  | .mstep _ => some 0x5001#16
  | .reset => some 0x6000#16
  | .capr => none
  | .capf => none
  | .tmo => none
  | .cmpa => none
  | .cmpb => none
  | .mtake => none
  | .mspd => none
  | .mind => none

end Sys2Proof.Machine
end

