-- ==== Sys2Proof/Certificates/Slice0/Obligations.lean ====
section
/-! DEFINITION. The statements for the provers, in the spec's order: encoding, step, launch and reset, pulse decoder, speed
translator, switching scheduler, direction indicator, control loop, and the whole machine. -/

open Sys2Proof Sys2Proof.Machine

/-! ## Encoding -/

/-- R98, both ways: each worked line encodes to its word, the word decodes to it, and `wait 20000` is the five words of
the rule. -/
def Obligations.WorkedEncodings : Prop :=
  (encode .rise = 0x1000#16 ∧ decode 0x1000#16 = .stim .rise) ∧
  (encode .fall = 0x2000#16 ∧ decode 0x2000#16 = .stim .fall) ∧
  (encode (.ctick 1500) = 0x35DC#16 ∧ decode 0x35DC#16 = .stim (.ctick 1500)) ∧
  (encode (.ctick 1700) = 0x36A4#16 ∧ decode 0x36A4#16 = .stim (.ctick 1700)) ∧
  (encode (.stick 110) = 0x406E#16 ∧ decode 0x406E#16 = .stim (.stick 110)) ∧
  (encode (.mstep 3) = 0x5003#16 ∧ decode 0x5003#16 = .stim (.mstep 3)) ∧
  (encode .reset = 0x6000#16 ∧ decode 0x6000#16 = .stim .reset) ∧
  ∀ cfg, AsmLine.assemble cfg (.wait 20000) = some [0x3FFF#16, 0x3FFF#16, 0x3FFF#16, 0x3FFF#16, 0x3E24#16]

/-- R87: the decoder's case table on the two fields of a word, as numbers, and the match and mask of each stimulus. -/
def Obligations.DecodeCaseTable : Prop :=
  ∀ w : Word,
    (w.toNat / 4096 = 0x1 → decode w = if w.toNat % 4096 = 0 then .stim .rise else .illegal .operandNotZero) ∧
    (w.toNat / 4096 = 0x2 → decode w = if w.toNat % 4096 = 0 then .stim .fall else .illegal .operandNotZero) ∧
    (w.toNat / 4096 = 0x3 →
      decode w = if 1 ≤ w.toNat % 4096 then .stim (.ctick (w.toNat % 4096)) else .illegal .zeroCount) ∧
    (w.toNat / 4096 = 0x4 →
      decode w = if 1 ≤ w.toNat % 4096 then .stim (.stick (w.toNat % 4096)) else .illegal .zeroCount) ∧
    (w.toNat / 4096 = 0x5 →
      decode w = if 1 ≤ w.toNat % 4096 then .stim (.mstep (w.toNat % 4096)) else .illegal .zeroCount) ∧
    (w.toNat / 4096 = 0x6 → decode w = if w.toNat % 4096 = 0 then .stim .reset else .illegal .operandNotZero) ∧
    (w.toNat / 4096 = 0x0 → decode w = .illegal .illegalOpcode) ∧
    (w.toNat / 4096 = 0x7 → decode w = .illegal .reservedOpcode) ∧
    (0x8 ≤ w.toNat / 4096 → decode w = .illegal .historyOnlyCode) ∧
    (decode w = .stim .rise ↔ w &&& 0xFFFF#16 = 0x1000#16) ∧
    (decode w = .stim .fall ↔ w &&& 0xFFFF#16 = 0x2000#16) ∧
    (decode w = .stim .reset ↔ w &&& 0xFFFF#16 = 0x6000#16) ∧
    ((∃ n, decode w = .stim (.ctick n)) ↔ w &&& 0xF000#16 = 0x3000#16 ∧ w &&& 0x0FFF#16 ≠ 0#16) ∧
    ((∃ n, decode w = .stim (.stick n)) ↔ w &&& 0xF000#16 = 0x4000#16 ∧ w &&& 0x0FFF#16 ≠ 0#16) ∧
    ((∃ n, decode w = .stim (.mstep n)) ↔ w &&& 0xF000#16 = 0x5000#16 ∧ w &&& 0x0FFF#16 ≠ 0#16)

/-- Decode and encode agree for all fourteen operations: a well-formed stimulus comes back from its word, a handler action
comes back from its history code and is refused in a trace (R85), and the table reader gives every row's operation
(log entry 7 says how the two formats are read). -/
def Obligations.DecodeOfEncode : Prop :=
  ∀ i : Instr, i.wellFormed = true →
    (i.isStimulus = true → decode (encode i) = .stim i ∧ decodeAction (encode i) = none) ∧
    (i.isStimulus = false → decode (encode i) = .illegal .historyOnlyCode ∧ decodeAction (encode i) = some i) ∧
    decodeTableWord 16 (encode i).toNat = some i

/-- No operation answers to two words: what either decoder reads is well formed, of the right class, and has exactly the
word read. No two well-formed operations share a word, and no word is read by both decoders (R81, R83, R85). -/
def Obligations.EncodeOfDecode : Prop :=
  (∀ (w : Word) (i : Instr), decode w = .stim i → i.wellFormed = true ∧ i.isStimulus = true ∧ encode i = w) ∧
  (∀ (w : Word) (i : Instr), decodeAction w = some i → i.isStimulus = false ∧ encode i = w) ∧
  (∀ i j : Instr, i.wellFormed = true → j.wellFormed = true → encode i = encode j → i = j) ∧
  ∀ (w : Word) (i : Instr), decode w = .stim i → decodeAction w = none

/-- R91's splitting of a count line: for every `N >= 1` the words are `floor(N / 4095)` of count 4095, then one of count
`N mod 4095` if that is not 0, written out here from the codes of R84. For each of the three count operations they are
well formed and running them is exactly `N` single steps (R86). It is also `exec` of the whole count, which for a count
above 4095, that no word holds, is the model's own choice (log entry 11, DESIGN CHOICE). -/
def Obligations.AssemblerSplitsCounts : Prop :=
  ∀ n, 1 ≤ n →
    (∀ cfg,
      (AsmLine.ctick n).assemble cfg = some (List.replicate (n / 4095) 0x3FFF#16 ++
        if n % 4095 = 0 then [] else [BitVec.ofNat 16 (0x3000 + n % 4095)]) ∧
      (AsmLine.stick n).assemble cfg = some (List.replicate (n / 4095) 0x4FFF#16 ++
        if n % 4095 = 0 then [] else [BitVec.ofNat 16 (0x4000 + n % 4095)]) ∧
      (AsmLine.mstep n).assemble cfg = some (List.replicate (n / 4095) 0x5FFF#16 ++
        if n % 4095 = 0 then [] else [BitVec.ofNat 16 (0x5000 + n % 4095)])) ∧
    ∀ op ∈ [Instr.ctick, Instr.stick, Instr.mstep],
      (∀ i ∈ splitCount op n, i.wellFormed = true) ∧
      (splitCount op n).length = n / 4095 + (if n % 4095 = 0 then 0 else 1) ∧
      ∀ s, execAll (splitCount op n) s = execAll (List.replicate n (op 1)) s ∧
        execAll (splitCount op n) s = exec (op n) s

/-- R93: the expansion of every pseudo-operation, with operands of at least 1 and `P > W`, as what running it does. -/
def Obligations.PseudoOperations : Prop :=
  ∀ (cfg : Config) (w p n : Nat), 1 ≤ w → w < p → 1 ≤ n →
    ∀ s, ∃ pulse low frame wait period process,
      AsmLine.operations cfg (.pulse w) = some pulse ∧
        execAll pulse s = execAll [.rise, .ctick w, .fall] s ∧
      AsmLine.operations cfg (.low n) = some low ∧ execAll low s = exec (.ctick n) s ∧
      AsmLine.operations cfg (.frame w p) = some frame ∧
        execAll frame s = execAll [.rise, .ctick w, .fall, .ctick (p - w)] s ∧
      AsmLine.operations cfg (.wait n) = some wait ∧ execAll wait s = exec (.ctick n) s ∧
      AsmLine.operations cfg .period = some period ∧ execAll period s = exec (.stick (cfg.SW_TOP + 1)) s ∧
      AsmLine.operations cfg .process = some process ∧ execAll process s = exec (.mstep 3) s

/-! ## Step -/

/-- A step runs the decoded instruction: when the first word of the trace decodes to `i`, the step is `exec i` on the
machine with that word taken off the trace; nothing else moves (R95). -/
def Obligations.StepRunsDecodedInstruction : Prop :=
  ∀ (s : State) (w : Word) (rest : List Word) (i : Instr), s.trace = w :: rest → decode w = .stim i →
    step s = exec i { s with trace := rest }

/-- A word placed by `withFetchWord` is the next one run: for a well-formed stimulus the very next step is exactly its
`exec` (log entry 1). -/
def Obligations.FetchWordIsRunNext : Prop :=
  ∀ (s : State) (i : Instr), i.wellFormed = true → i.isStimulus = true →
    step (s.withFetchWord 16 (encode i).toNat) = exec i s

/-- R92, whole: the two cases in which a trace is refused, that every other stimulus is enabled in a state that satisfies
INV (its clauses 1 to 6 are enough), and that the model gives no run past the refusal point. -/
def Obligations.TraceRefusals : Prop :=
  ∀ (s : State) (w : Word) (rest : List Word), s.trace = w :: rest →
    (∀ why, decode w = .illegal why → step s = .refused (.illegal why)) ∧
    (decode w = .stim .rise → s.st.lvl = true → step s = .refused .levelAlreadyHigh) ∧
    (decode w = .stim .fall → s.st.lvl = false → step s = .refused .levelAlreadyLow) ∧
    (∀ i, decode w = .stim i → s.Inv6 → ¬(i = .rise ∧ s.st.lvl = true) → ¬(i = .fall ∧ s.st.lvl = false) →
      ∃ t, step s = .next t) ∧
    (∀ why n, step s = .refused why → runWords (n + 1) s = (s, .refusedAt why))

/-- The model's own end of a run (log entry 1, DESIGN CHOICE): with no word left there is no step, and the run is complete
(R96 says what that does not mean). -/
def Obligations.NoStepWithoutStimulus : Prop :=
  ∀ s : State, s.trace = [] → step s = .refused .endOfTrace ∧ run s = (s, .complete)

/-- R86: a count word, count 1 to 4095, is exactly `count` consecutive single steps, equal to `count` words of count 1, for
each of the three count operations, from every state, with the same records. -/
def Obligations.CountWordsRepeat : Prop :=
  ∀ op ∈ [Instr.ctick, Instr.stick, Instr.mstep], ∀ n, 1 ≤ n → n ≤ 4095 →
    ∀ s, exec (op n) s = execAll (List.replicate n (op 1)) s

/-- The reserved count 0 handed to an operation is refused under the decoder's name (R88; that `exec` checks it too is log
entry 11, DESIGN CHOICE). -/
def Obligations.ZeroCountRefused : Prop :=
  ∀ s, exec (.ctick 0) s = .refused (.illegal .zeroCount) ∧
    exec (.stick 0) s = .refused (.illegal .zeroCount) ∧
    exec (.mstep 0) s = .refused (.illegal .zeroCount)

/-! ## Launch and reset -/

/-- R55, for every configuration the model accepts (log entry 4): a launch state is the core-start state or one that
satisfies INV, and one that breaks INV is refused. -/
def Obligations.LaunchStates : Prop :=
  ∀ (cfg : Config) (c : Cells) (ws : List Word), ValidConfig cfg →
    launch cfg (Cells.coreStart cfg.CMD_LEVEL0) ws = .next (State.coreStart cfg ws) ∧
    (c.INV cfg → launch cfg c ws = .next { cfg := cfg, st := c, trace := ws, log := [] }) ∧
    (¬c.INV cfg → launch cfg c ws = .refused .badLaunchState)

/-- A configuration that breaks a constraint of R9 is refused (I16), whatever the launch state. -/
def Obligations.BadConfigurationsRefused : Prop :=
  ∀ (cfg : Config) (c : Cells) (ws : List Word),
    (cfg.CLAMP_LO ≤ cfg.TOL_LO ∨ cfg.CENTER < cfg.CLAMP_LO + cfg.DEADBAND ∨
      cfg.CLAMP_HI < cfg.CENTER + cfg.DEADBAND ∨ cfg.TOL_HI ≤ cfg.CLAMP_HI ∨ cfg.DIVISOR = 0 ∨
      cfg.TMO_TICKS ≤ cfg.TOL_HI ∨ 2 ^ cfg.CAP_W ≤ cfg.TMO_TICKS ∨ cfg.SW_TOP < cfg.SPEED_MAX ∨
      2 ^ cfg.SW_W ≤ cfg.SW_TOP) →
    launch cfg c ws = .refused .badConfig

/-- R52, whole: the value of every cell at core start, for every configuration and trace, and that the RESET operation
writes these values to every cell except `lvl`. -/
def Obligations.ResetValues : Prop :=
  ∀ (cfg : Config) (ws : List Word) (s : State),
    (State.coreStart cfg ws).st =
      { ms := 0#8, prev := 0#8, sample := none, ready := false, tmo := false, phase := .WR, cap_cnt := 0#16,
        cap_run := true, lvl := cfg.CMD_LEVEL0, mev := none, mpc := 0#2, sw_cnt := 0#8, thr := 0#8, hb := 0x5#4,
        ind := 0#2 } ∧
    ∃ t, exec .reset s = .next t ∧
      t.st =
        { ms := 0#8, prev := 0#8, sample := none, ready := false, tmo := false, phase := .WR, cap_cnt := 0#16,
          cap_run := true, lvl := s.st.lvl, mev := none, mpc := 0#2, sw_cnt := 0#8, thr := 0#8, hb := 0x5#4,
          ind := 0#2 }

/-- R261: RESET is never refused and writes every cell except `lvl`; after it the line may be high with the decoder in WR,
and the next FALL is then ignored (it changes `lvl` only). The configuration and the rest of the trace stay, and the step
is recorded with no handler. -/
def Obligations.ResetOperation : Prop :=
  decode 0x6000#16 = .stim .reset ∧
  ∀ s : State, ∃ t,
    exec .reset s = .next t ∧
    t = { s with
      st := { Cells.coreStart s.cfg.CMD_LEVEL0 with lvl := s.st.lvl }
      log := ⟨0x6000#16, none, 0x5#4, 0#2⟩ :: s.log } ∧
    (s.st.lvl = true → ∃ u, exec .fall t = .next u ∧ u.st = { t.st with lvl := false })

/-- Core start satisfies the inductive invariant, for every configuration the model accepts and every trace (R53: "Every
state the core reaches from core start satisfies INV"; the base case). -/
def Obligations.CoreStartMeetsInvariant : Prop :=
  ∀ (cfg : Config) (ws : List Word), ValidConfig cfg → (State.coreStart cfg ws).ReachInv

/-- State.reset is core start of its own configuration, with nothing recorded and nothing to apply, and it meets the
inductive invariant. Which configuration it carries is the model's choice (log entry 2); the clauses hold of it. -/
def Obligations.ResetStateMeetsInvariant : Prop :=
  State.reset = State.coreStart State.reset.cfg [] ∧ State.reset.ReachInv

/-! ## Pulse decoder -/

/-- R111: RISE in each of its three cases. Refused when the line is high; with WR it captures, with WF it changes `lvl` only.
R117: the capture handler CAPR, by itself and inside RISE's step; its code never stands in a trace. Every other cell, the
configuration and the trace stay; the step is recorded with its handler. -/
def Obligations.RiseEffect : Prop :=
  (decode 0x1000#16 = .stim .rise ∧ decodeAction 0x8000#16 = some .capr ∧
    decode 0x8000#16 = .illegal .historyOnlyCode) ∧
  ∀ s : State,
    exec .capr s = .next { s with st := { s.st with cap_cnt := 0#16, cap_run := true, phase := .WF } } ∧
    (s.st.lvl = true → exec .rise s = .refused .levelAlreadyHigh) ∧
    (s.st.lvl = false → s.st.phase = .WR →
      exec .rise s = .next { s with
        st := { s.st with lvl := true, cap_cnt := 0#16, cap_run := true, phase := .WF }
        log := ⟨0x1000#16, some 0x8000#16, s.st.hb, s.st.ind⟩ :: s.log }) ∧
    (s.st.lvl = false → s.st.phase = .WF →
      exec .rise s = .next { s with
        st := { s.st with lvl := true }
        log := ⟨0x1000#16, none, s.st.hb, s.st.ind⟩ :: s.log })

/-- R112: FALL in each of its three cases. Refused when the line is low; with WF it captures, with WR it changes `lvl` only.
R118: the capture handler CAPF, by itself and inside FALL's step, overwriting an older sample (R119); its code never stands
in a trace. Every other cell, the configuration and the trace stay. -/
def Obligations.FallEffect : Prop :=
  (decode 0x2000#16 = .stim .fall ∧ decodeAction 0x9000#16 = some .capf ∧
    decode 0x9000#16 = .illegal .historyOnlyCode) ∧
  ∀ s : State,
    exec .capf s = .next { s with
      st := { s.st with
        sample := some s.st.cap_cnt, ready := true, phase := .WR, cap_cnt := 0#16, cap_run := true } } ∧
    (s.st.lvl = false → exec .fall s = .refused .levelAlreadyLow) ∧
    (s.st.lvl = true → s.st.phase = .WF →
      exec .fall s = .next { s with
        st := { s.st with
          lvl := false, sample := some s.st.cap_cnt, ready := true, phase := .WR, cap_cnt := 0#16, cap_run := true }
        log := ⟨0x2000#16, some 0x9000#16, s.st.hb, s.st.ind⟩ :: s.log }) ∧
    (s.st.lvl = true → s.st.phase = .WR →
      exec .fall s = .next { s with
        st := { s.st with lvl := false }
        log := ⟨0x2000#16, none, s.st.hb, s.st.ind⟩ :: s.log })

/-- R113: CTICK's word and its count; one single step, in a state that satisfies INV (clauses 1 to 6 suffice): a running
counter counts, the tick that reaches cfg.TMO_TICKS runs TMO, a stopped counter changes no cell. The count is stated as a
number: it never wraps. R120: the handler TMO by itself and inside CTICK's step; its code never stands in a trace. -/
def Obligations.CaptureTick : Prop :=
  (decodeAction 0xA000#16 = some .tmo ∧ decode 0xA000#16 = .illegal .historyOnlyCode) ∧
  (∀ n, 1 ≤ n → n ≤ 4095 → decode (BitVec.ofNat 16 (0x3000 + n)) = .stim (.ctick n) ∧
    ∀ s, exec (.ctick n) s = execAll (List.replicate n (.ctick 1)) s) ∧
  (∀ s : State, exec .tmo s = .next { s with st := { s.st with cap_run := false, tmo := true, phase := .WR } }) ∧
  ∀ s : State, s.Inv6 →
    (s.st.cap_run = true → s.st.cap_cnt.toNat + 1 < s.cfg.TMO_TICKS →
      ∃ c, c.toNat = s.st.cap_cnt.toNat + 1 ∧ exec (.ctick 1) s = .next { s with
        st := { s.st with cap_cnt := c }
        log := ⟨0x3001#16, none, s.st.hb, s.st.ind⟩ :: s.log }) ∧
    (s.st.cap_run = true → s.st.cap_cnt.toNat + 1 = s.cfg.TMO_TICKS →
      ∃ c, c.toNat = s.cfg.TMO_TICKS ∧ exec (.ctick 1) s = .next { s with
        st := { s.st with cap_cnt := c, cap_run := false, tmo := true, phase := .WR }
        log := ⟨0x3001#16, some 0xA000#16, s.st.hb, s.st.ind⟩ :: s.log }) ∧
    (s.st.cap_run = false →
      exec (.ctick 1) s = .next { s with log := ⟨0x3001#16, none, s.st.hb, s.st.ind⟩ :: s.log })

/-- CTICK completes for every count in every state that satisfies clauses 1 to 6 of INV, and the timeout comes at the
TMO_TICKS-th tick after the last captured edge and not before (R113, R116, R121, R124): below it the counter alone
advances, from it on the counter stands at TMO_TICKS whatever further ticks come, and a stopped counter keeps every cell. -/
def Obligations.CaptureTicks : Prop :=
  ∀ (s : State) (n : Nat), s.Inv6 → 1 ≤ n →
    ∃ t, exec (.ctick n) s = .next t ∧ t.cfg = s.cfg ∧ t.trace = s.trace ∧ t.log.length = s.log.length + n ∧
      (s.st.cap_run = true → s.st.cap_cnt.toNat + n < s.cfg.TMO_TICKS →
        t.st = { s.st with cap_cnt := BitVec.ofNat 16 (s.st.cap_cnt.toNat + n) }) ∧
      (s.st.cap_run = true → s.cfg.TMO_TICKS ≤ s.st.cap_cnt.toNat + n →
        t.st = { s.st with
          cap_cnt := BitVec.ofNat 16 s.cfg.TMO_TICKS, cap_run := false, tmo := true, phase := .WR }) ∧
      (s.st.cap_run = false → t.st = s.st)

/-- R125, with the other agents running: let a captured RISE be followed by a captured FALL with no timeout between them
(fewer than TMO_TICKS capture ticks, any ticks of the switching clock and any main-loop steps, in any order). The run
completes, and the recorded sample is the number of CTICK steps between the two edges. -/
def Obligations.PulseWidthIsTickCount : Prop :=
  ∀ (s : State) (ops : List Instr), s.Inv6 → s.st.lvl = false → s.st.phase = .WR →
    (∀ i ∈ ops, i.wellFormed = true ∧ (agentOf i = some .CAP_CLK ∨ agentOf i = some .SW_CLK ∨ agentOf i = some .MAIN)) →
    (ops.map captureSteps).sum < s.cfg.TMO_TICKS →
    ∃ t, execAll (.rise :: (ops ++ [.fall])) s = .next t ∧
      t.st.sample.map BitVec.toNat = some (ops.map captureSteps).sum ∧ t.st.ready = true ∧
      t.st.phase = .WR ∧ t.st.lvl = false

/-- R122, self-healing: after a timeout the next rising edge is captured whatever the line did before (one FALL is ignored
first if it was high), and the frame that edge starts is decoded: its width becomes the sample. -/
def Obligations.SelfHealing : Prop :=
  ∀ (s : State) (w : Nat), s.Inv6 → s.st.cap_run = false → 1 ≤ w → w < s.cfg.TMO_TICKS →
    (s.st.lvl = true → ∃ u, exec .fall s = .next u ∧ u.st = { s.st with lvl := false }) ∧
    ∃ t, execAll ((if s.st.lvl = true then [.fall] else []) ++ [.rise, .ctick w, .fall]) s = .next t ∧
      t.st = { s.st with
        lvl := false, sample := some (BitVec.ofNat 16 w), ready := true, phase := .WR, cap_cnt := 0#16,
        cap_run := true }

/-! ## Speed translator -/

/-- R152, the worked values, for the source's values of R9. -/
def Obligations.TranslateWorkedValues : Prop :=
  ∀ (top : Nat) (level : Bool),
    (translate (Config.source top level) 1500#16).toInt = 0 ∧
    (translate (Config.source top level) 1550#16).toInt = 0 ∧
    (translate (Config.source top level) 1700#16).toInt = 40 ∧
    (translate (Config.source top level) 2000#16).toInt = 100 ∧
    (translate (Config.source top level) 1000#16).toInt = -100 ∧
    (translate (Config.source top level) 2400#16).toInt = 0 ∧
    (translate (Config.source top level) 800#16).toInt = 0 ∧
    (translate (Config.source top level) 801#16).toInt = -100 ∧
    (translate (Config.source top level) 1578#16).toInt = 16

/-- R149, for the source's values of R9: on [1000, 2000] the speed is the integer nearest to (w - 1500) / 5 (the only `v`
with |5 v - (w - 1500)| under 2.5), except 0 within 75 of 1500; outside (800, 2200) it is 0. -/
def Obligations.TranslateAgreesWithSource : Prop :=
  ∀ (top : Nat) (level : Bool) (w : CapTicks),
    (1000 ≤ w.toNat → w.toNat ≤ 2000 →
      if ((w.toNat : Int) - 1500).natAbs ≤ 75 then (translate (Config.source top level) w).toInt = 0
      else 2 * (5 * (translate (Config.source top level) w).toInt - ((w.toNat : Int) - 1500)).natAbs < 5) ∧
    (w.toNat ≤ 800 ∨ 2200 ≤ w.toNat → (translate (Config.source top level) w).toInt = 0)

/-- R147, for the source's values of R9: 0 or a magnitude in [15, 100], and both ends are taken. -/
def Obligations.TranslateRange : Prop :=
  ∀ (top : Nat) (level : Bool),
    (∀ w : CapTicks, (translate (Config.source top level) w).toInt = 0 ∨
      (15 ≤ (translate (Config.source top level) w).toInt.natAbs ∧
        (translate (Config.source top level) w).toInt.natAbs ≤ 100)) ∧
    (translate (Config.source top level) 1576#16).toInt = 15 ∧
    (translate (Config.source top level) 2000#16).toInt = 100

/-- The range of R141 for every configuration the model accepts, and that no narrowing loses a value: the s8 written is
the mathematical integer of R146 (the extra constraints are log entry 4's). -/
def Obligations.TranslateFitsSpeed : Prop :=
  ∀ (cfg : Config) (w : CapTicks), ValidConfig cfg →
    -100 ≤ (translate cfg w).toInt ∧ (translate cfg w).toInt ≤ 100 ∧
    (translate cfg w).toInt = speedOfWidth cfg w.toNat

/-- R150, for the source's values of R9: non-decreasing on the accepted band, with the jumps the rule names. -/
def Obligations.TranslateMonotone : Prop :=
  ∀ (top : Nat) (level : Bool),
    (∀ v w : CapTicks, 800 < v.toNat → v.toNat ≤ w.toNat → w.toNat < 2200 →
      (translate (Config.source top level) v).toInt ≤ (translate (Config.source top level) w).toInt) ∧
    ((translate (Config.source top level) 1575#16).toInt = 0 ∧
      (translate (Config.source top level) 1576#16).toInt = 15) ∧
    ((translate (Config.source top level) 1425#16).toInt = 0 ∧
      (translate (Config.source top level) 1424#16).toInt = -15) ∧
    ((translate (Config.source top level) 800#16).toInt = 0 ∧
      (translate (Config.source top level) 801#16).toInt = -100) ∧
    ((translate (Config.source top level) 2200#16).toInt = 0 ∧
      (translate (Config.source top level) 2199#16).toInt = 100)

/-- R151, for the source's values of R9: the translator is odd about the centre. -/
def Obligations.TranslateSymmetric : Prop :=
  ∀ (top : Nat) (level : Bool) (k : Nat), k ≤ 1500 →
    (translate (Config.source top level) (BitVec.ofNat 16 (1500 + k))).toInt =
      -(translate (Config.source top level) (BitVec.ofNat 16 (1500 - k))).toInt

/-! ## Switching scheduler -/

/-- R162: STICK's word and its count; one single step, in a state that satisfies INV (clauses 1 to 6 suffice): at cfg.SW_TOP
the counter wraps and CMPA runs; otherwise it counts, and the count `thr` runs CMPB. At most one of the two handlers runs.
R166, R168: the two handlers by themselves. CMPA's one read of MotorSpeed gives both the pattern and the threshold, and at
speed 0 the pattern stays; neither code stands in a trace. -/
def Obligations.SwitchTick : Prop :=
  (decodeAction 0xB000#16 = some .cmpa ∧ decode 0xB000#16 = .illegal .historyOnlyCode ∧
    decodeAction 0xC000#16 = some .cmpb ∧ decode 0xC000#16 = .illegal .historyOnlyCode) ∧
  (∀ n, 1 ≤ n → n ≤ 4095 → decode (BitVec.ofNat 16 (0x4000 + n)) = .stim (.stick n) ∧
    ∀ s, exec (.stick n) s = execAll (List.replicate n (.stick 1)) s) ∧
  (∀ s : State, exec .cmpb s = .next { s with st := { s.st with hb := 0x5#4 } }) ∧
  (∀ s : State, ∃ thr, thr.toNat = s.st.ms.toInt.natAbs ∧
    (0 < s.st.ms.toInt → exec .cmpa s = .next { s with st := { s.st with hb := 0x9#4, thr := thr } }) ∧
    (s.st.ms.toInt < 0 → exec .cmpa s = .next { s with st := { s.st with hb := 0x6#4, thr := thr } }) ∧
    (s.st.ms.toInt = 0 → exec .cmpa s = .next { s with st := { s.st with thr := thr } })) ∧
  ∀ s : State, s.Inv6 →
    (s.st.sw_cnt.toNat = s.cfg.SW_TOP →
      ∃ hb thr, thr.toNat = s.st.ms.toInt.natAbs ∧
        hb = (if 0 < s.st.ms.toInt then 0x9#4 else if s.st.ms.toInt < 0 then 0x6#4 else s.st.hb) ∧
        exec (.stick 1) s = .next { s with
          st := { s.st with sw_cnt := 0#8, hb := hb, thr := thr }
          log := ⟨0x4001#16, some 0xB000#16, hb, s.st.ind⟩ :: s.log }) ∧
    (s.st.sw_cnt.toNat ≠ s.cfg.SW_TOP →
      ∃ c, c.toNat = s.st.sw_cnt.toNat + 1 ∧
        (c = s.st.thr → exec (.stick 1) s = .next { s with
          st := { s.st with sw_cnt := c, hb := 0x5#4 }
          log := ⟨0x4001#16, some 0xC000#16, 0x5#4, s.st.ind⟩ :: s.log }) ∧
        (c ≠ s.st.thr → exec (.stick 1) s = .next { s with
          st := { s.st with sw_cnt := c }
          log := ⟨0x4001#16, none, s.st.hb, s.st.ind⟩ :: s.log }))

/-- STICK completes for every count in every state that satisfies clauses 1 to 6 of INV; the counter runs modulo SW_TOP + 1,
whatever the speed (R163), and only the scheduler's cells move. -/
def Obligations.SwitchingPeriod : Prop :=
  ∀ (s : State) (n : Nat), s.Inv6 → 1 ≤ n →
    ∃ t, exec (.stick n) s = .next t ∧ t.cfg = s.cfg ∧ t.trace = s.trace ∧ t.log.length = s.log.length + n ∧
      t.st.sw_cnt.toNat = (s.st.sw_cnt.toNat + n) % (s.cfg.SW_TOP + 1) ∧
      t.st = { s.st with sw_cnt := t.st.sw_cnt, thr := t.st.thr, hb := t.st.hb }

/-- R169: take the period that starts with the next STICK. At its count `k` the output is the drive pattern of the speed's
sign for `k < abs(s)` and RCH from there to SW_TOP, with the threshold at `abs(s)`; at least one count is RCH. First for
the switching clock alone, where the run completes; then for every run that starts with that STICK and takes `k` more
among any steps of the other agents (R66; RESET apart, which ends the period), whatever speeds they publish. -/
def Obligations.DriveThenRecharge : Prop :=
  ∀ (s : State) (k : Nat), s.Inv6 → s.st.sw_cnt.toNat = s.cfg.SW_TOP → k ≤ s.cfg.SW_TOP →
    s.st.ms.toInt.natAbs ≤ s.cfg.SW_TOP ∧
    (∃ t, exec (.stick (k + 1)) s = .next t ∧ t.st.sw_cnt.toNat = k ∧ t.st.thr.toNat = s.st.ms.toInt.natAbs ∧
      t.st.hb =
        if k < s.st.ms.toInt.natAbs then (if 0 < s.st.ms.toInt then 0x9#4 else 0x6#4) else 0x5#4) ∧
    ∀ (ops : List Instr) (t : State), (∀ i ∈ ops, i.wellFormed = true ∧ i.isStimulus = true ∧ i ≠ .reset) →
      (ops.map switchSteps).sum = k → execAll (.stick 1 :: ops) s = .next t →
      t.st.sw_cnt.toNat = k ∧ t.st.thr.toNat = s.st.ms.toInt.natAbs ∧
      t.st.hb =
        if k < s.st.ms.toInt.natAbs then (if 0 < s.st.ms.toInt then 0x9#4 else 0x6#4) else 0x5#4

/-- R171, the recharge invariant, for every interleaving: whenever the switching clock has taken a whole period's SW_TOP + 1
ticks, among any steps of the other agents (RESET apart) and whatever the speeds, the recharge pattern was on the output
after one of those steps; and just before each CMPA it is on the output. -/
def Obligations.RechargeEveryPeriod : Prop :=
  (∀ s : State, s.Inv6 → s.st.sw_cnt.toNat = s.cfg.SW_TOP → s.st.hb = 0x5#4) ∧
  ∀ (s t : State) (ops : List Instr), s.Inv6 → (∀ i ∈ ops, i.isStimulus = true ∧ i ≠ .reset) →
    s.cfg.SW_TOP + 1 ≤ (ops.map switchSteps).sum → execAll ops s = .next t →
    ∃ new, t.log = new ++ s.log ∧ ∃ r ∈ new, r.stim = 0x4001#16 ∧ r.hb = 0x5#4

/-- R263, for every run from core start, under every interleaving. As long as no word leaves a non-zero speed, the output
is RCH after every atomic step. A non-zero speed needs a whole event from a captured pulse: CAPF, MTAKE and MSPD stand in
the history in that order. A pattern other than RCH, now or after an earlier atomic step, needs a CMPA after those. -/
def Obligations.RechargeUntilFirstSpeed : Prop :=
  ∀ (cfg : Config) (ws : List Word) (ops : List Instr) (t : State), ValidConfig cfg →
    (∀ i ∈ ops, i.isStimulus = true) → execAll ops (State.coreStart cfg ws) = .next t →
    ((∀ (pre : List Instr) (u : State), pre <+: ops → execAll pre (State.coreStart cfg ws) = .next u →
        u.st.ms = 0#8) →
      t.st.hb = 0x5#4 ∧ ∀ r ∈ t.log, r.hb = 0x5#4) ∧
    (t.st.ms ≠ 0#8 → [0x9000#16, 0xD000#16, 0xE000#16].Sublist t.history) ∧
    ((t.st.hb ≠ 0x5#4 ∨ ∃ r ∈ t.log, r.hb ≠ 0x5#4) →
      [0x9000#16, 0xD000#16, 0xE000#16, 0xB000#16].Sublist t.history)

/-- R174, as non-interference: up to the next CMPA, two machines that agree on the scheduler's cells give the same pattern,
count and threshold whatever their speeds and every other cell. -/
def Obligations.SpeedIsLatched : Prop :=
  ∀ (s s' : State) (n : Nat), s.Inv6 → s'.Inv6 → s'.cfg = s.cfg → sameScheduler s.st s'.st → 1 ≤ n →
    s.st.sw_cnt.toNat + n ≤ s.cfg.SW_TOP →
    ∃ t t', exec (.stick n) s = .next t ∧ exec (.stick n) s' = .next t' ∧ sameScheduler t.st t'.st ∧
      t.st.thr = s.st.thr

/-- R175: when CMPA reads 0, the output holds RCH for the whole period and `hstate` is Neutral. -/
def Obligations.NeutralPeriod : Prop :=
  ∀ (s : State) (k : Nat), s.Inv6 → s.st.sw_cnt.toNat = s.cfg.SW_TOP → s.st.ms = 0#8 → k ≤ s.cfg.SW_TOP →
    ∃ t, exec (.stick (k + 1)) s = .next t ∧ t.st.hb = 0x5#4 ∧ hstate t.st = .Neutral

/-- R37: the four values of HBridgeOutputState, a function of two cells. -/
def Obligations.BridgeStates : Prop :=
  ∀ c : Cells,
    (c.hb = 0x9#4 → hstate c = .Forward) ∧ (c.hb = 0x6#4 → hstate c = .Backward) ∧
    (c.hb ≠ 0x9#4 → c.hb ≠ 0x6#4 → c.thr = 0#8 → hstate c = .Neutral) ∧
    (c.hb ≠ 0x9#4 → c.hb ≠ 0x6#4 → c.thr ≠ 0#8 → hstate c = .RechargeWindow)

/-- R40 to R42: the switches of the three patterns, and why every other pattern is forbidden: shoot-through, a high side with
both low sides off, or one of 0x0, 0x1, 0x4. -/
def Obligations.PatternSwitches : Prop :=
  (switchHA 0x9#4 = true ∧ switchLA 0x9#4 = false ∧ switchHB 0x9#4 = false ∧ switchLB 0x9#4 = true) ∧
  (switchHA 0x6#4 = false ∧ switchLA 0x6#4 = true ∧ switchHB 0x6#4 = true ∧ switchLB 0x6#4 = false) ∧
  (switchHA 0x5#4 = false ∧ switchLA 0x5#4 = true ∧ switchHB 0x5#4 = false ∧ switchLB 0x5#4 = true) ∧
  ∀ hb : BitVec 4,
    (safePattern hb = true ↔ hb = 0x9#4 ∨ hb = 0x6#4 ∨ hb = 0x5#4) ∧
    (safePattern hb = true → shootThrough hb = false ∧ floating hb = false) ∧
    (safePattern hb = false →
      shootThrough hb = true ∨ floating hb = true ∨ hb = 0x0#4 ∨ hb = 0x1#4 ∨ hb = 0x4#4)

/-- R173, for every step of the machine and every atomic step inside it: from the pattern before the step, along the
patterns its records hold, to the pattern after it, only FWD, BWD and RCH are ever on the output, and the only changes
are FWD to RCH, BWD to RCH, RCH to FWD and RCH to BWD, so no step reverses the drive directly (R172). -/
def Obligations.OutputPatternsStaySafe : Prop :=
  ∀ s t : State, s.Inv6 → step s = .next t →
    ∃ new, t.log = new ++ s.log ∧
      (t.st.hb :: (new.map StepRecord.hb ++ [s.st.hb])).all safePattern = true ∧
      allowedChanges (t.st.hb :: (new.map StepRecord.hb ++ [s.st.hb])) = true

/-! ## Direction indicator -/

/-- R193: the full transition table by the signs of the two speeds; and R195: nothing but the signs of consecutive speeds
counts. -/
def Obligations.IndicatorTable : Prop :=
  ∀ (prev new : Int) (cur : BitVec 2),
    (prev < 0 → new < 0 → indicate prev new cur = cur) ∧
    (prev < 0 → new = 0 → indicate prev new cur = 0#2) ∧
    (prev < 0 → 0 < new → indicate prev new cur = 1#2) ∧
    (prev = 0 → new < 0 → indicate prev new cur = 2#2) ∧
    (prev = 0 → new = 0 → indicate prev new cur = cur) ∧
    (prev = 0 → 0 < new → indicate prev new cur = 1#2) ∧
    (0 < prev → new < 0 → indicate prev new cur = 2#2) ∧
    (0 < prev → new = 0 → indicate prev new cur = 0#2) ∧
    (0 < prev → 0 < new → indicate prev new cur = cur) ∧
    ∀ prev' new' : Int, prev.sign = prev'.sign → new.sign = new'.sign →
      indicate prev new cur = indicate prev' new' cur

/-- R192: MIND writes `ind` by R191's function, spelled out here, moves the loop to POLL, and writes nothing else. It runs as
the MSTEP at IND, and its code never stands in a trace. -/
def Obligations.IndicatorStep : Prop :=
  (decodeAction 0xF000#16 = some .mind ∧ decode 0xF000#16 = .illegal .historyOnlyCode) ∧
  (∀ s : State, s.st.mpc = 2#2 → ∀ t, exec .mind s = .next t →
    exec (.mstep 1) s = .next { t with log := ⟨0x5001#16, some 0xF000#16, t.st.hb, t.st.ind⟩ :: t.log }) ∧
  ∀ s : State,
    exec .mind s = .next { s with
      st := { s.st with
        ind :=
          if s.st.prev.toInt ≤ 0 ∧ 0 < s.st.ms.toInt then 1#2
          else if 0 ≤ s.st.prev.toInt ∧ s.st.ms.toInt < 0 then 2#2
          else if s.st.prev.toInt ≠ 0 ∧ s.st.ms.toInt = 0 then 0#2
          else s.st.ind
        mpc := 0#2 } }

/-! ## Control loop -/

/-- R203: MTAKE takes the sample when `ready = 1`, leaving a pending timeout pending (R206), else the timeout, and writes
nothing else. It runs as the MSTEP at POLL when an event is pending, and its code never stands in a trace. -/
def Obligations.TakeEvent : Prop :=
  (decodeAction 0xD000#16 = some .mtake ∧ decode 0xD000#16 = .illegal .historyOnlyCode) ∧
  (∀ s : State, s.st.mpc = 0#2 → (s.st.ready = true ∨ s.st.tmo = true) → ∀ t, exec .mtake s = .next t →
    exec (.mstep 1) s = .next { t with log := ⟨0x5001#16, some 0xD000#16, t.st.hb, t.st.ind⟩ :: t.log }) ∧
  ∀ s : State,
    (∀ w, s.st.ready = true → s.st.sample = some w →
      exec .mtake s = .next { s with
        st := { s.st with mev := some (.sample w), ready := false, mpc := 1#2 } }) ∧
    (s.st.ready = false → s.st.tmo = true →
      exec .mtake s = .next { s with
        st := { s.st with mev := some .timeout, tmo := false, mpc := 1#2 } })

/-- R204: MSPD keeps the old speed in `prev`, writes the event's speed (`translate` of a sample, 0 of a timeout), empties
`mev`, moves the loop to IND, and writes nothing else. It runs as the MSTEP at SPEED, and its code never stands in a
trace. -/
def Obligations.PublishSpeed : Prop :=
  (decodeAction 0xE000#16 = some .mspd ∧ decode 0xE000#16 = .illegal .historyOnlyCode) ∧
  (∀ s : State, s.st.mpc = 1#2 → ∀ t, exec .mspd s = .next t →
    exec (.mstep 1) s = .next { t with log := ⟨0x5001#16, some 0xE000#16, t.st.hb, t.st.ind⟩ :: t.log }) ∧
  ∀ s : State,
    (∀ w, s.st.mev = some (.sample w) →
      exec .mspd s = .next { s with
        st := { s.st with prev := s.st.ms, ms := translate s.cfg w, mev := none, mpc := 2#2 } }) ∧
    (s.st.mev = some .timeout →
      exec .mspd s = .next { s with
        st := { s.st with prev := s.st.ms, ms := 0#8, mev := none, mpc := 2#2 } })

/-- Where the main loop stops, in states no run from a launch state reaches: a sample read while it has no value (I11), an
event read while there is none, MSTEP at `mpc = 3`, and MTAKE on its own with no event pending (log entries 8, 9 and 10:
the last three names are the model's choice). No step of a state that satisfies INV (clauses 1 to 6 suffice) ends in a fault. -/
def Obligations.MainLoopStops : Prop :=
  (∀ s : State, s.st.ready = true → s.st.sample = none → exec .mtake s = .fault .sampleNoValue) ∧
  (∀ s : State, s.st.ready = false → s.st.tmo = false → exec .mtake s = .refused .noEventPending) ∧
  (∀ s : State, s.st.mev = none → exec .mspd s = .fault .eventNoValue) ∧
  (∀ s : State, s.st.mpc = 3#2 → exec (.mstep 1) s = .refused .sequencerReserved) ∧
  ∀ (s : State) (f : Fault), s.Inv6 → step s ≠ .fault f

/-- R201: MSTEP's word and its count; one single step: at POLL it is MTAKE with an event pending and a spin without, at SPEED
it is MSPD, at IND it is MIND; the cells are the sub-action's and the step is recorded with its code. In a state that
satisfies INV (clauses 1 to 6 suffice) it is never refused. -/
def Obligations.MainLoopStep : Prop :=
  (∀ n, 1 ≤ n → n ≤ 4095 → decode (BitVec.ofNat 16 (0x5000 + n)) = .stim (.mstep n) ∧
    ∀ s, exec (.mstep n) s = execAll (List.replicate n (.mstep 1)) s) ∧
  ∀ s : State,
    (s.st.mpc = 0#2 → (s.st.ready = true ∨ s.st.tmo = true) → ∀ t, exec .mtake s = .next t →
      exec (.mstep 1) s = .next { t with log := ⟨0x5001#16, some 0xD000#16, t.st.hb, t.st.ind⟩ :: t.log }) ∧
    (s.st.mpc = 0#2 → s.st.ready = false → s.st.tmo = false →
      exec (.mstep 1) s = .next { s with log := ⟨0x5001#16, none, s.st.hb, s.st.ind⟩ :: s.log }) ∧
    (s.st.mpc = 1#2 → ∀ t, exec .mspd s = .next t →
      exec (.mstep 1) s = .next { t with log := ⟨0x5001#16, some 0xE000#16, t.st.hb, t.st.ind⟩ :: t.log }) ∧
    (s.st.mpc = 2#2 → ∀ t, exec .mind s = .next t →
      exec (.mstep 1) s = .next { t with log := ⟨0x5001#16, some 0xF000#16, t.st.hb, t.st.ind⟩ :: t.log }) ∧
    (s.Inv6 → ∃ t, exec (.mstep 1) s = .next t)

/-- MSTEP never waits (R209): it completes for every count in every state that satisfies clauses 1 to 6 of INV, and touches
neither the decoder's cells nor the scheduler's nor the line. -/
def Obligations.MainLoopNeverBlocks : Prop :=
  ∀ (s : State) (n : Nat), s.Inv6 → 1 ≤ n →
    ∃ t, exec (.mstep n) s = .next t ∧ t.cfg = s.cfg ∧ t.trace = s.trace ∧ t.log.length = s.log.length + n ∧
      sameDecoder s.st t.st ∧ sameScheduler s.st t.st ∧ t.st.lvl = s.st.lvl

/-- R202: MSTEP steps at POLL with nothing pending change no cell, however many, and are recorded as spins. An idle main
loop is such a run (R246). -/
def Obligations.SpinChangesNothing : Prop :=
  ∀ (s : State) (n : Nat), s.st.mpc = 0#2 → s.st.ready = false → s.st.tmo = false → 1 ≤ n →
    exec (.mstep n) s = .next { s with
      log := List.replicate n ⟨0x5001#16, none, s.st.hb, s.st.ind⟩ ++ s.log }

/-- One event needs exactly three MSTEP steps from POLL and is processed whole (R201, R205, R207): the sample if one is
ready, else the timeout. `prev` is the replaced speed, the indicator follows by R191, and the loop is back at POLL. -/
def Obligations.EventTakesThreeSteps : Prop :=
  ∀ s : State, s.st.mpc = 0#2 →
    (∀ w, s.st.ready = true → s.st.sample = some w → ∃ t, exec (.mstep 3) s = .next t ∧
      t.st = { s.st with
        ready := false, prev := s.st.ms, ms := translate s.cfg w, mev := none, mpc := 0#2
        ind := indicate s.st.ms.toInt (translate s.cfg w).toInt s.st.ind }) ∧
    (s.st.ready = false → s.st.tmo = true → ∃ t, exec (.mstep 3) s = .next t ∧
      t.st = { s.st with
        tmo := false, prev := s.st.ms, ms := 0#8, mev := none, mpc := 0#2
        ind := indicate s.st.ms.toInt 0 s.st.ind })

/-- R210: from the timeout on, with no edge captured after it and any steps of the other agents between, the main loop has
written `ms = 0` within seven MSTEP steps and updated the indicator at the eighth, whatever the prior speed; with
`mpc = POLL` and nothing ready, two steps are enough for the speed. In the worst case, `mpc = SPEED` with a sample pending,
the sixth step still shows the pending sample's speed. -/
def Obligations.TimeoutReachesZeroSpeed : Prop :=
  ∀ s : State, s.ReachInv → s.st.tmo = true → s.st.cap_run = false →
    (∀ (t : State) (ops : List Instr), (∀ i ∈ ops, i.isStimulus = true ∧ i ≠ .rise ∧ i ≠ .reset) →
      execAll ops s = .next t →
      (7 ≤ (ops.map mainSteps).sum → t.st.ms = 0#8) ∧
      (8 ≤ (ops.map mainSteps).sum → t.st.ind = 0#2) ∧
      (s.st.mpc = 0#2 → s.st.ready = false → 2 ≤ (ops.map mainSteps).sum → t.st.ms = 0#8)) ∧
    ∀ w, s.st.mpc = 1#2 → s.st.ready = true → s.st.sample = some w →
      ∃ u, exec (.mstep 6) s = .next u ∧ u.st.ms = translate s.cfg w

/-- R279's premise at work: in every infinite run that is fair to the main loop, a timeout with no edge captured after it
leads to speed 0 and a neutral indicator for good. -/
def Obligations.FairRunsReachNeutral : Prop :=
  ∀ (stimuli : Nat → Instr) (states : Nat → State),
    (states 0).ReachInv → (states 0).st.tmo = true → (states 0).st.cap_run = false →
    (∀ k, (stimuli k).isStimulus = true ∧ stimuli k ≠ .rise ∧ stimuli k ≠ .reset) →
    (∀ k, exec (stimuli k) (states k) = .next (states (k + 1))) → FairToMain stimuli →
    ∃ m, ∀ k, m ≤ k → (states k).st.ms = 0#8 ∧ (states k).st.ind = 0#2

/-! ## The whole machine -/

/-- Every step keeps the inductive invariant: INV of R53 with the clause that R197's induction uses for a main loop between
MSPD and MIND (log entry 12). With CoreStartMeetsInvariant, every state reached from core start satisfies INV. -/
def Obligations.StepKeepsInvariant : Prop :=
  ∀ s t : State, s.ReachInv → step s = .next t → t.ReachInv

/-- From any launch state, one that only satisfies INV, every step keeps clauses 1 to 6 of R53. -/
def Obligations.StepKeepsFirstSixClauses : Prop :=
  ∀ s t : State, s.Inv6 → step s = .next t → t.Inv6

/-- R53: every state the core reaches from core start satisfies INV, for every configuration the model accepts, every trace
and every number of its words; and no such run ends in a fault. -/
def Obligations.RunsFromCoreStartSatisfyInv : Prop :=
  ∀ (cfg : Config) (ws : List Word) (n : Nat), ValidConfig cfg →
    (runWords n (State.coreStart cfg ws)).1.Inv ∧
    ∀ f, (runWords n (State.coreStart cfg ws)).2 ≠ .faulted f

/-- The same for every launch: a run from any launch state R55 admits keeps clauses 1 to 6 of INV and never faults. -/
def Obligations.RunsFromLaunchNeverFault : Prop :=
  ∀ (cfg : Config) (c : Cells) (ws : List Word) (s : State) (n : Nat), launch cfg c ws = .next s →
    (runWords n s).1.Inv6 ∧ ∀ f, (runWords n s).2 ≠ .faulted f

/-- R53's bracket "each step preserves each clause", taken for every state that satisfies INV. It fails: a launch state at
IND whose indicator does not show the sign of `prev` satisfies INV, and its MIND can leave clause 7 broken (log entry
12). -/
def Obligations.InvAloneIsInductive : Prop :=
  ∀ s t : State, s.Inv → step s = .next t → t.Inv

/-- The column "written by" of R20's table, for all fourteen operations and every count (R54, R241): an operation that
answers a next state leaves every cell it does not own as it was, and the configuration and the trace too. -/
def Obligations.CellsChangeOnlyByTheirWriters : Prop :=
  ∀ (i : Instr) (s t : State), exec i s = .next t →
    ownedUnchanged s.st t.st i ∧ t.cfg = s.cfg ∧ t.trace = s.trace

/-- R236 and R89, for every stimulus and every count: one record an atomic step, each with the stimulus word of count 1 and
at most one handler code, of a handler this agent may trigger; the newest record shows the ports as they now are (R97).
Handler actions record nothing of their own. -/
def Obligations.OneHandlerPerStep : Prop :=
  ∀ (i : Instr) (s t : State), exec i s = .next t →
    ∃ new, t.log = new ++ s.log ∧ new.length = singleSteps i ∧
      (∀ r ∈ new, stimulusRecord i = some r.stim ∧ ∀ a ∈ r.act, a ∈ handlerCodes i) ∧
      (∀ r ∈ new.head?, r.hb = t.st.hb ∧ r.ind = t.st.ind)

/-- R89, R97: the history and the observation of a run are only ever appended to, whatever operation runs. -/
def Obligations.HistoryOnlyGrows : Prop :=
  ∀ (i : Instr) (s t : State), exec i s = .next t →
    s.history <+: t.history ∧ s.observation <+: t.observation
end

