-- ==== Sys2Proof/Laws/Decode.lean ====
section
/-! SUPPORT. The fields of a word, read and written. -/

namespace Sys2Proof

theorem opField_eq (w : Word) : opField w = w.toNat / 4096 := by
  have := w.isLt
  simp only [opField, BitVec.extractLsb'_toNat, Nat.shiftRight_eq_div_pow]
  omega

theorem nField_eq (w : Word) : nField w = w.toNat % 4096 := by
  simp [nField, BitVec.extractLsb'_toNat]

theorem nField_lt (w : Word) : nField w < 4096 := by rw [nField_eq]; omega

theorem opField_lt (w : Word) : opField w < 16 := by rw [opField_eq]; have := w.isLt; omega

theorem wordOf_toNat {op n : Nat} (hop : op < 16) : (wordOf op n).toNat = op * 4096 + n % 4096 := by
  simp only [wordOf, BitVec.toNat_ofNat]; omega

theorem opField_wordOf {op n : Nat} (hop : op < 16) : opField (wordOf op n) = op := by
  rw [opField_eq, wordOf_toNat hop]; omega

theorem nField_wordOf {op n : Nat} (hop : op < 16) : nField (wordOf op n) = n % 4096 := by
  rw [nField_eq, wordOf_toNat hop]; omega

/-- A word is its two fields (R81). -/
theorem wordOf_fields (w : Word) : wordOf (opField w) (nField w) = w := by
  apply BitVec.eq_of_toNat_eq
  rw [wordOf_toNat (opField_lt w), opField_eq, nField_eq]; omega

end Sys2Proof
end

