-- ==== Sys2Proof/Laws/State.lean ====
section
/-! SUPPORT. What each update of the state leaves in each field, one lemma a field, so that no proof unfolds an update. -/

namespace Sys2Proof.Machine

/-! ## The machine's own fields -/

@[simp] theorem State.withSt_cfg (s : State) (c : Cells) : (s.withSt c).cfg = s.cfg := rfl
@[simp] theorem State.withSt_st (s : State) (c : Cells) : (s.withSt c).st = c := rfl
@[simp] theorem State.withSt_trace (s : State) (c : Cells) : (s.withSt c).trace = s.trace := rfl
@[simp] theorem State.withSt_log (s : State) (c : Cells) : (s.withSt c).log = s.log := rfl

@[simp] theorem commit_cfg (i : Instr) (a : Option Instr) (s : State) : (commit i a s).cfg = s.cfg := rfl
@[simp] theorem commit_st (i : Instr) (a : Option Instr) (s : State) : (commit i a s).st = s.st := rfl
@[simp] theorem commit_trace (i : Instr) (a : Option Instr) (s : State) : (commit i a s).trace = s.trace := rfl
@[simp] theorem commit_log (i : Instr) (a : Option Instr) (s : State) :
    (commit i a s).log = ⟨encode i, a.map encode, s.st.hb, s.st.ind⟩ :: s.log := rfl

@[simp] theorem State.withSt_st_self (s : State) : s.withSt s.st = s := rfl
@[simp] theorem State.withSt_withSt (s : State) (c d : Cells) : (s.withSt c).withSt d = s.withSt d := rfl

@[simp] theorem State.coreStart_cfg (cfg : Config) (ws : List Word) : (State.coreStart cfg ws).cfg = cfg := rfl
@[simp] theorem State.coreStart_st (cfg : Config) (ws : List Word) : (State.coreStart cfg ws).st = Cells.coreStart cfg.CMD_LEVEL0 := rfl
@[simp] theorem State.coreStart_trace (cfg : Config) (ws : List Word) : (State.coreStart cfg ws).trace = ws := rfl
@[simp] theorem State.coreStart_log (cfg : Config) (ws : List Word) : (State.coreStart cfg ws).log = [] := rfl

@[simp] theorem State.withFetchWord_cfg (s : State) (k w : Nat) : (s.withFetchWord k w).cfg = s.cfg := rfl
@[simp] theorem State.withFetchWord_st (s : State) (k w : Nat) : (s.withFetchWord k w).st = s.st := rfl
@[simp] theorem State.withFetchWord_trace (s : State) (k w : Nat) : (s.withFetchWord k w).trace = BitVec.ofNat 16 w :: s.trace := rfl
@[simp] theorem State.withFetchWord_log (s : State) (k w : Nat) : (s.withFetchWord k w).log = s.log := rfl

/-! ## The cells at core start -/

@[simp] theorem Cells.coreStart_ms (b : Bool) : (Cells.coreStart b).ms = 0#8 := rfl
@[simp] theorem Cells.coreStart_prev (b : Bool) : (Cells.coreStart b).prev = 0#8 := rfl
@[simp] theorem Cells.coreStart_sample (b : Bool) : (Cells.coreStart b).sample = none := rfl
@[simp] theorem Cells.coreStart_ready (b : Bool) : (Cells.coreStart b).ready = false := rfl
@[simp] theorem Cells.coreStart_tmo (b : Bool) : (Cells.coreStart b).tmo = false := rfl
@[simp] theorem Cells.coreStart_phase (b : Bool) : (Cells.coreStart b).phase = .WR := rfl
@[simp] theorem Cells.coreStart_cap_cnt (b : Bool) : (Cells.coreStart b).cap_cnt = 0#16 := rfl
@[simp] theorem Cells.coreStart_cap_run (b : Bool) : (Cells.coreStart b).cap_run = true := rfl
@[simp] theorem Cells.coreStart_lvl (b : Bool) : (Cells.coreStart b).lvl = b := rfl
@[simp] theorem Cells.coreStart_mev (b : Bool) : (Cells.coreStart b).mev = none := rfl
@[simp] theorem Cells.coreStart_mpc (b : Bool) : (Cells.coreStart b).mpc = Mpc.POLL := rfl
@[simp] theorem Cells.coreStart_sw_cnt (b : Bool) : (Cells.coreStart b).sw_cnt = 0#8 := rfl
@[simp] theorem Cells.coreStart_thr (b : Bool) : (Cells.coreStart b).thr = 0#8 := rfl
@[simp] theorem Cells.coreStart_hb (b : Bool) : (Cells.coreStart b).hb = Hb.RCH := rfl
@[simp] theorem Cells.coreStart_ind (b : Bool) : (Cells.coreStart b).ind = Ind.NEU := rfl

/-! ## The updates of the cells -/

@[simp] theorem Cells.setLvl_ms (c : Cells) (b : Bool) : (c.setLvl b).ms = c.ms := rfl
@[simp] theorem Cells.setLvl_prev (c : Cells) (b : Bool) : (c.setLvl b).prev = c.prev := rfl
@[simp] theorem Cells.setLvl_sample (c : Cells) (b : Bool) : (c.setLvl b).sample = c.sample := rfl
@[simp] theorem Cells.setLvl_ready (c : Cells) (b : Bool) : (c.setLvl b).ready = c.ready := rfl
@[simp] theorem Cells.setLvl_tmo (c : Cells) (b : Bool) : (c.setLvl b).tmo = c.tmo := rfl
@[simp] theorem Cells.setLvl_phase (c : Cells) (b : Bool) : (c.setLvl b).phase = c.phase := rfl
@[simp] theorem Cells.setLvl_cap_cnt (c : Cells) (b : Bool) : (c.setLvl b).cap_cnt = c.cap_cnt := rfl
@[simp] theorem Cells.setLvl_cap_run (c : Cells) (b : Bool) : (c.setLvl b).cap_run = c.cap_run := rfl
@[simp] theorem Cells.setLvl_lvl (c : Cells) (b : Bool) : (c.setLvl b).lvl = b := rfl
@[simp] theorem Cells.setLvl_mev (c : Cells) (b : Bool) : (c.setLvl b).mev = c.mev := rfl
@[simp] theorem Cells.setLvl_mpc (c : Cells) (b : Bool) : (c.setLvl b).mpc = c.mpc := rfl
@[simp] theorem Cells.setLvl_sw_cnt (c : Cells) (b : Bool) : (c.setLvl b).sw_cnt = c.sw_cnt := rfl
@[simp] theorem Cells.setLvl_thr (c : Cells) (b : Bool) : (c.setLvl b).thr = c.thr := rfl
@[simp] theorem Cells.setLvl_hb (c : Cells) (b : Bool) : (c.setLvl b).hb = c.hb := rfl
@[simp] theorem Cells.setLvl_ind (c : Cells) (b : Bool) : (c.setLvl b).ind = c.ind := rfl

@[simp] theorem Cells.captureRise_ms (c : Cells) : c.captureRise.ms = c.ms := rfl
@[simp] theorem Cells.captureRise_prev (c : Cells) : c.captureRise.prev = c.prev := rfl
@[simp] theorem Cells.captureRise_sample (c : Cells) : c.captureRise.sample = c.sample := rfl
@[simp] theorem Cells.captureRise_ready (c : Cells) : c.captureRise.ready = c.ready := rfl
@[simp] theorem Cells.captureRise_tmo (c : Cells) : c.captureRise.tmo = c.tmo := rfl
@[simp] theorem Cells.captureRise_phase (c : Cells) : c.captureRise.phase = .WF := rfl
@[simp] theorem Cells.captureRise_cap_cnt (c : Cells) : c.captureRise.cap_cnt = 0#16 := rfl
@[simp] theorem Cells.captureRise_cap_run (c : Cells) : c.captureRise.cap_run = true := rfl
@[simp] theorem Cells.captureRise_lvl (c : Cells) : c.captureRise.lvl = c.lvl := rfl
@[simp] theorem Cells.captureRise_mev (c : Cells) : c.captureRise.mev = c.mev := rfl
@[simp] theorem Cells.captureRise_mpc (c : Cells) : c.captureRise.mpc = c.mpc := rfl
@[simp] theorem Cells.captureRise_sw_cnt (c : Cells) : c.captureRise.sw_cnt = c.sw_cnt := rfl
@[simp] theorem Cells.captureRise_thr (c : Cells) : c.captureRise.thr = c.thr := rfl
@[simp] theorem Cells.captureRise_hb (c : Cells) : c.captureRise.hb = c.hb := rfl
@[simp] theorem Cells.captureRise_ind (c : Cells) : c.captureRise.ind = c.ind := rfl

@[simp] theorem Cells.captureFall_ms (c : Cells) : c.captureFall.ms = c.ms := rfl
@[simp] theorem Cells.captureFall_prev (c : Cells) : c.captureFall.prev = c.prev := rfl
@[simp] theorem Cells.captureFall_sample (c : Cells) : c.captureFall.sample = some c.cap_cnt := rfl
@[simp] theorem Cells.captureFall_ready (c : Cells) : c.captureFall.ready = true := rfl
@[simp] theorem Cells.captureFall_tmo (c : Cells) : c.captureFall.tmo = c.tmo := rfl
@[simp] theorem Cells.captureFall_phase (c : Cells) : c.captureFall.phase = .WR := rfl
@[simp] theorem Cells.captureFall_cap_cnt (c : Cells) : c.captureFall.cap_cnt = 0#16 := rfl
@[simp] theorem Cells.captureFall_cap_run (c : Cells) : c.captureFall.cap_run = true := rfl
@[simp] theorem Cells.captureFall_lvl (c : Cells) : c.captureFall.lvl = c.lvl := rfl
@[simp] theorem Cells.captureFall_mev (c : Cells) : c.captureFall.mev = c.mev := rfl
@[simp] theorem Cells.captureFall_mpc (c : Cells) : c.captureFall.mpc = c.mpc := rfl
@[simp] theorem Cells.captureFall_sw_cnt (c : Cells) : c.captureFall.sw_cnt = c.sw_cnt := rfl
@[simp] theorem Cells.captureFall_thr (c : Cells) : c.captureFall.thr = c.thr := rfl
@[simp] theorem Cells.captureFall_hb (c : Cells) : c.captureFall.hb = c.hb := rfl
@[simp] theorem Cells.captureFall_ind (c : Cells) : c.captureFall.ind = c.ind := rfl

@[simp] theorem Cells.timeOut_ms (c : Cells) : c.timeOut.ms = c.ms := rfl
@[simp] theorem Cells.timeOut_prev (c : Cells) : c.timeOut.prev = c.prev := rfl
@[simp] theorem Cells.timeOut_sample (c : Cells) : c.timeOut.sample = c.sample := rfl
@[simp] theorem Cells.timeOut_ready (c : Cells) : c.timeOut.ready = c.ready := rfl
@[simp] theorem Cells.timeOut_tmo (c : Cells) : c.timeOut.tmo = true := rfl
@[simp] theorem Cells.timeOut_phase (c : Cells) : c.timeOut.phase = .WR := rfl
@[simp] theorem Cells.timeOut_cap_cnt (c : Cells) : c.timeOut.cap_cnt = c.cap_cnt := rfl
@[simp] theorem Cells.timeOut_cap_run (c : Cells) : c.timeOut.cap_run = false := rfl
@[simp] theorem Cells.timeOut_lvl (c : Cells) : c.timeOut.lvl = c.lvl := rfl
@[simp] theorem Cells.timeOut_mev (c : Cells) : c.timeOut.mev = c.mev := rfl
@[simp] theorem Cells.timeOut_mpc (c : Cells) : c.timeOut.mpc = c.mpc := rfl
@[simp] theorem Cells.timeOut_sw_cnt (c : Cells) : c.timeOut.sw_cnt = c.sw_cnt := rfl
@[simp] theorem Cells.timeOut_thr (c : Cells) : c.timeOut.thr = c.thr := rfl
@[simp] theorem Cells.timeOut_hb (c : Cells) : c.timeOut.hb = c.hb := rfl
@[simp] theorem Cells.timeOut_ind (c : Cells) : c.timeOut.ind = c.ind := rfl

@[simp] theorem Cells.countCapture_ms (c : Cells) : c.countCapture.ms = c.ms := rfl
@[simp] theorem Cells.countCapture_prev (c : Cells) : c.countCapture.prev = c.prev := rfl
@[simp] theorem Cells.countCapture_sample (c : Cells) : c.countCapture.sample = c.sample := rfl
@[simp] theorem Cells.countCapture_ready (c : Cells) : c.countCapture.ready = c.ready := rfl
@[simp] theorem Cells.countCapture_tmo (c : Cells) : c.countCapture.tmo = c.tmo := rfl
@[simp] theorem Cells.countCapture_phase (c : Cells) : c.countCapture.phase = c.phase := rfl
@[simp] theorem Cells.countCapture_cap_cnt (c : Cells) : c.countCapture.cap_cnt = c.cap_cnt + 1#16 := rfl
@[simp] theorem Cells.countCapture_cap_run (c : Cells) : c.countCapture.cap_run = c.cap_run := rfl
@[simp] theorem Cells.countCapture_lvl (c : Cells) : c.countCapture.lvl = c.lvl := rfl
@[simp] theorem Cells.countCapture_mev (c : Cells) : c.countCapture.mev = c.mev := rfl
@[simp] theorem Cells.countCapture_mpc (c : Cells) : c.countCapture.mpc = c.mpc := rfl
@[simp] theorem Cells.countCapture_sw_cnt (c : Cells) : c.countCapture.sw_cnt = c.sw_cnt := rfl
@[simp] theorem Cells.countCapture_thr (c : Cells) : c.countCapture.thr = c.thr := rfl
@[simp] theorem Cells.countCapture_hb (c : Cells) : c.countCapture.hb = c.hb := rfl
@[simp] theorem Cells.countCapture_ind (c : Cells) : c.countCapture.ind = c.ind := rfl

@[simp] theorem Cells.wrapSwitch_ms (c : Cells) : c.wrapSwitch.ms = c.ms := rfl
@[simp] theorem Cells.wrapSwitch_prev (c : Cells) : c.wrapSwitch.prev = c.prev := rfl
@[simp] theorem Cells.wrapSwitch_sample (c : Cells) : c.wrapSwitch.sample = c.sample := rfl
@[simp] theorem Cells.wrapSwitch_ready (c : Cells) : c.wrapSwitch.ready = c.ready := rfl
@[simp] theorem Cells.wrapSwitch_tmo (c : Cells) : c.wrapSwitch.tmo = c.tmo := rfl
@[simp] theorem Cells.wrapSwitch_phase (c : Cells) : c.wrapSwitch.phase = c.phase := rfl
@[simp] theorem Cells.wrapSwitch_cap_cnt (c : Cells) : c.wrapSwitch.cap_cnt = c.cap_cnt := rfl
@[simp] theorem Cells.wrapSwitch_cap_run (c : Cells) : c.wrapSwitch.cap_run = c.cap_run := rfl
@[simp] theorem Cells.wrapSwitch_lvl (c : Cells) : c.wrapSwitch.lvl = c.lvl := rfl
@[simp] theorem Cells.wrapSwitch_mev (c : Cells) : c.wrapSwitch.mev = c.mev := rfl
@[simp] theorem Cells.wrapSwitch_mpc (c : Cells) : c.wrapSwitch.mpc = c.mpc := rfl
@[simp] theorem Cells.wrapSwitch_sw_cnt (c : Cells) : c.wrapSwitch.sw_cnt = 0#8 := rfl
@[simp] theorem Cells.wrapSwitch_thr (c : Cells) : c.wrapSwitch.thr = c.thr := rfl
@[simp] theorem Cells.wrapSwitch_hb (c : Cells) : c.wrapSwitch.hb = c.hb := rfl
@[simp] theorem Cells.wrapSwitch_ind (c : Cells) : c.wrapSwitch.ind = c.ind := rfl

@[simp] theorem Cells.countSwitch_ms (c : Cells) : c.countSwitch.ms = c.ms := rfl
@[simp] theorem Cells.countSwitch_prev (c : Cells) : c.countSwitch.prev = c.prev := rfl
@[simp] theorem Cells.countSwitch_sample (c : Cells) : c.countSwitch.sample = c.sample := rfl
@[simp] theorem Cells.countSwitch_ready (c : Cells) : c.countSwitch.ready = c.ready := rfl
@[simp] theorem Cells.countSwitch_tmo (c : Cells) : c.countSwitch.tmo = c.tmo := rfl
@[simp] theorem Cells.countSwitch_phase (c : Cells) : c.countSwitch.phase = c.phase := rfl
@[simp] theorem Cells.countSwitch_cap_cnt (c : Cells) : c.countSwitch.cap_cnt = c.cap_cnt := rfl
@[simp] theorem Cells.countSwitch_cap_run (c : Cells) : c.countSwitch.cap_run = c.cap_run := rfl
@[simp] theorem Cells.countSwitch_lvl (c : Cells) : c.countSwitch.lvl = c.lvl := rfl
@[simp] theorem Cells.countSwitch_mev (c : Cells) : c.countSwitch.mev = c.mev := rfl
@[simp] theorem Cells.countSwitch_mpc (c : Cells) : c.countSwitch.mpc = c.mpc := rfl
@[simp] theorem Cells.countSwitch_sw_cnt (c : Cells) : c.countSwitch.sw_cnt = c.sw_cnt + 1#8 := rfl
@[simp] theorem Cells.countSwitch_thr (c : Cells) : c.countSwitch.thr = c.thr := rfl
@[simp] theorem Cells.countSwitch_hb (c : Cells) : c.countSwitch.hb = c.hb := rfl
@[simp] theorem Cells.countSwitch_ind (c : Cells) : c.countSwitch.ind = c.ind := rfl

@[simp] theorem Cells.startPeriod_ms (c : Cells) : c.startPeriod.ms = c.ms := rfl
@[simp] theorem Cells.startPeriod_prev (c : Cells) : c.startPeriod.prev = c.prev := rfl
@[simp] theorem Cells.startPeriod_sample (c : Cells) : c.startPeriod.sample = c.sample := rfl
@[simp] theorem Cells.startPeriod_ready (c : Cells) : c.startPeriod.ready = c.ready := rfl
@[simp] theorem Cells.startPeriod_tmo (c : Cells) : c.startPeriod.tmo = c.tmo := rfl
@[simp] theorem Cells.startPeriod_phase (c : Cells) : c.startPeriod.phase = c.phase := rfl
@[simp] theorem Cells.startPeriod_cap_cnt (c : Cells) : c.startPeriod.cap_cnt = c.cap_cnt := rfl
@[simp] theorem Cells.startPeriod_cap_run (c : Cells) : c.startPeriod.cap_run = c.cap_run := rfl
@[simp] theorem Cells.startPeriod_lvl (c : Cells) : c.startPeriod.lvl = c.lvl := rfl
@[simp] theorem Cells.startPeriod_mev (c : Cells) : c.startPeriod.mev = c.mev := rfl
@[simp] theorem Cells.startPeriod_mpc (c : Cells) : c.startPeriod.mpc = c.mpc := rfl
@[simp] theorem Cells.startPeriod_sw_cnt (c : Cells) : c.startPeriod.sw_cnt = c.sw_cnt := rfl
@[simp] theorem Cells.startPeriod_thr (c : Cells) : c.startPeriod.thr = BitVec.ofNat 8 c.ms.toInt.natAbs := rfl
@[simp] theorem Cells.startPeriod_hb (c : Cells) :
    c.startPeriod.hb = if 0 < c.ms.toInt then Hb.FWD else if c.ms.toInt < 0 then Hb.BWD else c.hb := rfl
@[simp] theorem Cells.startPeriod_ind (c : Cells) : c.startPeriod.ind = c.ind := rfl

@[simp] theorem Cells.recharge_ms (c : Cells) : c.recharge.ms = c.ms := rfl
@[simp] theorem Cells.recharge_prev (c : Cells) : c.recharge.prev = c.prev := rfl
@[simp] theorem Cells.recharge_sample (c : Cells) : c.recharge.sample = c.sample := rfl
@[simp] theorem Cells.recharge_ready (c : Cells) : c.recharge.ready = c.ready := rfl
@[simp] theorem Cells.recharge_tmo (c : Cells) : c.recharge.tmo = c.tmo := rfl
@[simp] theorem Cells.recharge_phase (c : Cells) : c.recharge.phase = c.phase := rfl
@[simp] theorem Cells.recharge_cap_cnt (c : Cells) : c.recharge.cap_cnt = c.cap_cnt := rfl
@[simp] theorem Cells.recharge_cap_run (c : Cells) : c.recharge.cap_run = c.cap_run := rfl
@[simp] theorem Cells.recharge_lvl (c : Cells) : c.recharge.lvl = c.lvl := rfl
@[simp] theorem Cells.recharge_mev (c : Cells) : c.recharge.mev = c.mev := rfl
@[simp] theorem Cells.recharge_mpc (c : Cells) : c.recharge.mpc = c.mpc := rfl
@[simp] theorem Cells.recharge_sw_cnt (c : Cells) : c.recharge.sw_cnt = c.sw_cnt := rfl
@[simp] theorem Cells.recharge_thr (c : Cells) : c.recharge.thr = c.thr := rfl
@[simp] theorem Cells.recharge_hb (c : Cells) : c.recharge.hb = Hb.RCH := rfl
@[simp] theorem Cells.recharge_ind (c : Cells) : c.recharge.ind = c.ind := rfl

@[simp] theorem Cells.takeSample_ms (c : Cells) (w : CapTicks) : (c.takeSample w).ms = c.ms := rfl
@[simp] theorem Cells.takeSample_prev (c : Cells) (w : CapTicks) : (c.takeSample w).prev = c.prev := rfl
@[simp] theorem Cells.takeSample_sample (c : Cells) (w : CapTicks) : (c.takeSample w).sample = c.sample := rfl
@[simp] theorem Cells.takeSample_ready (c : Cells) (w : CapTicks) : (c.takeSample w).ready = false := rfl
@[simp] theorem Cells.takeSample_tmo (c : Cells) (w : CapTicks) : (c.takeSample w).tmo = c.tmo := rfl
@[simp] theorem Cells.takeSample_phase (c : Cells) (w : CapTicks) : (c.takeSample w).phase = c.phase := rfl
@[simp] theorem Cells.takeSample_cap_cnt (c : Cells) (w : CapTicks) : (c.takeSample w).cap_cnt = c.cap_cnt := rfl
@[simp] theorem Cells.takeSample_cap_run (c : Cells) (w : CapTicks) : (c.takeSample w).cap_run = c.cap_run := rfl
@[simp] theorem Cells.takeSample_lvl (c : Cells) (w : CapTicks) : (c.takeSample w).lvl = c.lvl := rfl
@[simp] theorem Cells.takeSample_mev (c : Cells) (w : CapTicks) : (c.takeSample w).mev = some (.sample w) := rfl
@[simp] theorem Cells.takeSample_mpc (c : Cells) (w : CapTicks) : (c.takeSample w).mpc = Mpc.SPEED := rfl
@[simp] theorem Cells.takeSample_sw_cnt (c : Cells) (w : CapTicks) : (c.takeSample w).sw_cnt = c.sw_cnt := rfl
@[simp] theorem Cells.takeSample_thr (c : Cells) (w : CapTicks) : (c.takeSample w).thr = c.thr := rfl
@[simp] theorem Cells.takeSample_hb (c : Cells) (w : CapTicks) : (c.takeSample w).hb = c.hb := rfl
@[simp] theorem Cells.takeSample_ind (c : Cells) (w : CapTicks) : (c.takeSample w).ind = c.ind := rfl

@[simp] theorem Cells.takeTimeout_ms (c : Cells) : c.takeTimeout.ms = c.ms := rfl
@[simp] theorem Cells.takeTimeout_prev (c : Cells) : c.takeTimeout.prev = c.prev := rfl
@[simp] theorem Cells.takeTimeout_sample (c : Cells) : c.takeTimeout.sample = c.sample := rfl
@[simp] theorem Cells.takeTimeout_ready (c : Cells) : c.takeTimeout.ready = c.ready := rfl
@[simp] theorem Cells.takeTimeout_tmo (c : Cells) : c.takeTimeout.tmo = false := rfl
@[simp] theorem Cells.takeTimeout_phase (c : Cells) : c.takeTimeout.phase = c.phase := rfl
@[simp] theorem Cells.takeTimeout_cap_cnt (c : Cells) : c.takeTimeout.cap_cnt = c.cap_cnt := rfl
@[simp] theorem Cells.takeTimeout_cap_run (c : Cells) : c.takeTimeout.cap_run = c.cap_run := rfl
@[simp] theorem Cells.takeTimeout_lvl (c : Cells) : c.takeTimeout.lvl = c.lvl := rfl
@[simp] theorem Cells.takeTimeout_mev (c : Cells) : c.takeTimeout.mev = some .timeout := rfl
@[simp] theorem Cells.takeTimeout_mpc (c : Cells) : c.takeTimeout.mpc = Mpc.SPEED := rfl
@[simp] theorem Cells.takeTimeout_sw_cnt (c : Cells) : c.takeTimeout.sw_cnt = c.sw_cnt := rfl
@[simp] theorem Cells.takeTimeout_thr (c : Cells) : c.takeTimeout.thr = c.thr := rfl
@[simp] theorem Cells.takeTimeout_hb (c : Cells) : c.takeTimeout.hb = c.hb := rfl
@[simp] theorem Cells.takeTimeout_ind (c : Cells) : c.takeTimeout.ind = c.ind := rfl

@[simp] theorem Cells.publish_ms (c : Cells) (v : Speed) : (c.publish v).ms = v := rfl
@[simp] theorem Cells.publish_prev (c : Cells) (v : Speed) : (c.publish v).prev = c.ms := rfl
@[simp] theorem Cells.publish_sample (c : Cells) (v : Speed) : (c.publish v).sample = c.sample := rfl
@[simp] theorem Cells.publish_ready (c : Cells) (v : Speed) : (c.publish v).ready = c.ready := rfl
@[simp] theorem Cells.publish_tmo (c : Cells) (v : Speed) : (c.publish v).tmo = c.tmo := rfl
@[simp] theorem Cells.publish_phase (c : Cells) (v : Speed) : (c.publish v).phase = c.phase := rfl
@[simp] theorem Cells.publish_cap_cnt (c : Cells) (v : Speed) : (c.publish v).cap_cnt = c.cap_cnt := rfl
@[simp] theorem Cells.publish_cap_run (c : Cells) (v : Speed) : (c.publish v).cap_run = c.cap_run := rfl
@[simp] theorem Cells.publish_lvl (c : Cells) (v : Speed) : (c.publish v).lvl = c.lvl := rfl
@[simp] theorem Cells.publish_mev (c : Cells) (v : Speed) : (c.publish v).mev = none := rfl
@[simp] theorem Cells.publish_mpc (c : Cells) (v : Speed) : (c.publish v).mpc = Mpc.IND := rfl
@[simp] theorem Cells.publish_sw_cnt (c : Cells) (v : Speed) : (c.publish v).sw_cnt = c.sw_cnt := rfl
@[simp] theorem Cells.publish_thr (c : Cells) (v : Speed) : (c.publish v).thr = c.thr := rfl
@[simp] theorem Cells.publish_hb (c : Cells) (v : Speed) : (c.publish v).hb = c.hb := rfl
@[simp] theorem Cells.publish_ind (c : Cells) (v : Speed) : (c.publish v).ind = c.ind := rfl

@[simp] theorem Cells.showDirection_ms (c : Cells) : c.showDirection.ms = c.ms := rfl
@[simp] theorem Cells.showDirection_prev (c : Cells) : c.showDirection.prev = c.prev := rfl
@[simp] theorem Cells.showDirection_sample (c : Cells) : c.showDirection.sample = c.sample := rfl
@[simp] theorem Cells.showDirection_ready (c : Cells) : c.showDirection.ready = c.ready := rfl
@[simp] theorem Cells.showDirection_tmo (c : Cells) : c.showDirection.tmo = c.tmo := rfl
@[simp] theorem Cells.showDirection_phase (c : Cells) : c.showDirection.phase = c.phase := rfl
@[simp] theorem Cells.showDirection_cap_cnt (c : Cells) : c.showDirection.cap_cnt = c.cap_cnt := rfl
@[simp] theorem Cells.showDirection_cap_run (c : Cells) : c.showDirection.cap_run = c.cap_run := rfl
@[simp] theorem Cells.showDirection_lvl (c : Cells) : c.showDirection.lvl = c.lvl := rfl
@[simp] theorem Cells.showDirection_mev (c : Cells) : c.showDirection.mev = c.mev := rfl
@[simp] theorem Cells.showDirection_mpc (c : Cells) : c.showDirection.mpc = Mpc.POLL := rfl
@[simp] theorem Cells.showDirection_sw_cnt (c : Cells) : c.showDirection.sw_cnt = c.sw_cnt := rfl
@[simp] theorem Cells.showDirection_thr (c : Cells) : c.showDirection.thr = c.thr := rfl
@[simp] theorem Cells.showDirection_hb (c : Cells) : c.showDirection.hb = c.hb := rfl
@[simp] theorem Cells.showDirection_ind (c : Cells) :
    c.showDirection.ind = indicate c.prev.toInt c.ms.toInt c.ind := rfl

@[simp] theorem Cells.resetKeepLvl_ms (c : Cells) : c.resetKeepLvl.ms = 0#8 := rfl
@[simp] theorem Cells.resetKeepLvl_prev (c : Cells) : c.resetKeepLvl.prev = 0#8 := rfl
@[simp] theorem Cells.resetKeepLvl_sample (c : Cells) : c.resetKeepLvl.sample = none := rfl
@[simp] theorem Cells.resetKeepLvl_ready (c : Cells) : c.resetKeepLvl.ready = false := rfl
@[simp] theorem Cells.resetKeepLvl_tmo (c : Cells) : c.resetKeepLvl.tmo = false := rfl
@[simp] theorem Cells.resetKeepLvl_phase (c : Cells) : c.resetKeepLvl.phase = .WR := rfl
@[simp] theorem Cells.resetKeepLvl_cap_cnt (c : Cells) : c.resetKeepLvl.cap_cnt = 0#16 := rfl
@[simp] theorem Cells.resetKeepLvl_cap_run (c : Cells) : c.resetKeepLvl.cap_run = true := rfl
@[simp] theorem Cells.resetKeepLvl_lvl (c : Cells) : c.resetKeepLvl.lvl = c.lvl := rfl
@[simp] theorem Cells.resetKeepLvl_mev (c : Cells) : c.resetKeepLvl.mev = none := rfl
@[simp] theorem Cells.resetKeepLvl_mpc (c : Cells) : c.resetKeepLvl.mpc = Mpc.POLL := rfl
@[simp] theorem Cells.resetKeepLvl_sw_cnt (c : Cells) : c.resetKeepLvl.sw_cnt = 0#8 := rfl
@[simp] theorem Cells.resetKeepLvl_thr (c : Cells) : c.resetKeepLvl.thr = 0#8 := rfl
@[simp] theorem Cells.resetKeepLvl_hb (c : Cells) : c.resetKeepLvl.hb = Hb.RCH := rfl
@[simp] theorem Cells.resetKeepLvl_ind (c : Cells) : c.resetKeepLvl.ind = Ind.NEU := rfl

/-! ## The codes are distinct -/

@[simp] theorem Hb.FWD_ne_BWD : Hb.FWD ≠ Hb.BWD := by decide
@[simp] theorem Hb.FWD_ne_RCH : Hb.FWD ≠ Hb.RCH := by decide
@[simp] theorem Hb.BWD_ne_FWD : Hb.BWD ≠ Hb.FWD := by decide
@[simp] theorem Hb.BWD_ne_RCH : Hb.BWD ≠ Hb.RCH := by decide
@[simp] theorem Hb.RCH_ne_FWD : Hb.RCH ≠ Hb.FWD := by decide
@[simp] theorem Hb.RCH_ne_BWD : Hb.RCH ≠ Hb.BWD := by decide
@[simp] theorem Ind.NEU_ne_FWD : Ind.NEU ≠ Ind.FWD := by decide
@[simp] theorem Ind.NEU_ne_BWD : Ind.NEU ≠ Ind.BWD := by decide
@[simp] theorem Ind.FWD_ne_NEU : Ind.FWD ≠ Ind.NEU := by decide
@[simp] theorem Ind.FWD_ne_BWD : Ind.FWD ≠ Ind.BWD := by decide
@[simp] theorem Ind.BWD_ne_NEU : Ind.BWD ≠ Ind.NEU := by decide
@[simp] theorem Ind.BWD_ne_FWD : Ind.BWD ≠ Ind.FWD := by decide
@[simp] theorem Mpc.POLL_ne_SPEED : Mpc.POLL ≠ Mpc.SPEED := by decide
@[simp] theorem Mpc.POLL_ne_IND : Mpc.POLL ≠ Mpc.IND := by decide
@[simp] theorem Mpc.SPEED_ne_POLL : Mpc.SPEED ≠ Mpc.POLL := by decide
@[simp] theorem Mpc.SPEED_ne_IND : Mpc.SPEED ≠ Mpc.IND := by decide
@[simp] theorem Mpc.IND_ne_POLL : Mpc.IND ≠ Mpc.POLL := by decide
@[simp] theorem Mpc.IND_ne_SPEED : Mpc.IND ≠ Mpc.SPEED := by decide

end Sys2Proof.Machine
end

