-- ==== Sys2Proof/Laws/Ops.lean ====
section
/-! SUPPORT. Everything the shared operations can do: going on, ending a step, repeating one, fetching a word. -/

namespace Sys2Proof.Machine

/-! ## Going on from a next state -/

@[simp] theorem andThen_next (s : State) (f : State → Result) : andThen (.next s) f = f s := rfl
@[simp] theorem andThen_fault (e : Fault) (f : State → Result) : andThen (.fault e) f = .fault e := rfl
@[simp] theorem andThen_refused (e : Refusal) (f : State → Result) : andThen (.refused e) f = .refused e := rfl

/-- A next state after two parts comes from a next state of the first. -/
theorem andThen_eq_next {r : Result} {f : State → Result} {t : State} :
    andThen r f = .next t ↔ ∃ u, r = .next u ∧ f u = .next t := by
  cases r <;> simp

theorem andThen_assoc (r : Result) (f g : State → Result) :
    andThen (andThen r f) g = andThen r fun s => andThen (f s) g := by
  cases r <;> rfl

@[simp] theorem andThen_next_right (r : Result) : andThen r .next = r := by cases r <;> rfl

/-! ## A handler inside its trigger's step -/

/-- A served handler answers a next state exactly when the handler does, and adds the step's record. -/
theorem service_eq_next {stim act : Instr} {h : State → Result} {s t : State} :
    service stim act h s = .next t ↔ ∃ u, h s = .next u ∧ t = commit stim (some act) u := by
  simp only [service, andThen_eq_next, Host.Outcome.next.injEq]
  exact ⟨fun ⟨u, hu, ht⟩ => ⟨u, hu, ht.symm⟩, fun ⟨u, hu, ht⟩ => ⟨u, hu, ht.symm⟩⟩

/-! ## Repeated steps -/

@[simp] theorem repeatStep_zero (f : State → Result) (s : State) : repeatStep f 0 s = .next s := rfl

theorem repeatStep_succ (f : State → Result) (n : Nat) (s : State) :
    repeatStep f (n + 1) s = andThen (f s) (repeatStep f n) := rfl

@[simp] theorem repeatStep_one (f : State → Result) (s : State) : repeatStep f 1 s = f s := by
  simp [repeatStep_succ, funext (repeatStep_zero f)]

/-- `m + n` steps are `m` steps and then `n` steps. -/
theorem repeatStep_add (f : State → Result) (m n : Nat) (s : State) :
    repeatStep f (m + n) s = andThen (repeatStep f m s) (repeatStep f n) := by
  induction m generalizing s with
  | zero => simp
  | succ m ih =>
    rw [Nat.add_right_comm, repeatStep_succ, repeatStep_succ, andThen_assoc]
    exact congrArg _ (funext ih)

/-- What every single step keeps, any number of them keeps. -/
theorem repeatStep_keeps {f : State → Result} {P : State → Prop}
    (one : ∀ s t, P s → f s = .next t → P t) :
    ∀ n s t, P s → repeatStep f n s = .next t → P t := by
  intro n
  induction n with
  | zero => intro s t hs h; cases h; exact hs
  | succ n ih =>
    intro s t hs h
    obtain ⟨u, hu, ht⟩ := andThen_eq_next.mp h
    exact ih u t (one s u hs hu) ht

/-- A reflexive and transitive relation that every single step establishes holds across any number of them. -/
theorem repeatStep_relates {f : State → Result} {R : State → State → Prop} (refl : ∀ s, R s s)
    (trans : ∀ s t u, R s t → R t u → R s u) (one : ∀ s t, f s = .next t → R s t) :
    ∀ n s t, repeatStep f n s = .next t → R s t := by
  intro n
  induction n with
  | zero => intro s t h; cases h; exact refl s
  | succ n ih =>
    intro s t h
    obtain ⟨u, hu, ht⟩ := andThen_eq_next.mp h
    exact trans s u t (one s u hu) (ih u t ht)

/-- Where an invariant makes every single step go on, any number of them goes on. -/
theorem repeatStep_completes {f : State → Result} {P : State → Prop}
    (one : ∀ s, P s → ∃ t, f s = .next t ∧ P t) : ∀ n s, P s → ∃ t, repeatStep f n s = .next t ∧ P t := by
  intro n
  induction n with
  | zero => intro s hs; exact ⟨s, rfl, hs⟩
  | succ n ih =>
    intro s hs
    obtain ⟨u, hu, pu⟩ := one s hs
    obtain ⟨t, ht, pt⟩ := ih u pu
    exact ⟨t, andThen_eq_next.mpr ⟨u, hu, ht⟩, pt⟩

/-- A count word runs its single steps; the reserved count 0 is refused. -/
theorem counted_pos (f : State → Result) {n : Nat} (hn : 1 ≤ n) (s : State) : counted f n s = repeatStep f n s := by
  simp [counted, Nat.ne_of_gt hn]

@[simp] theorem counted_zero (f : State → Result) (s : State) : counted f 0 s = .refused (.illegal .zeroCount) := rfl

@[simp] theorem counted_one (f : State → Result) (s : State) : counted f 1 s = f s := by simp [counted]

theorem counted_eq_next {f : State → Result} {n : Nat} {s t : State} :
    counted f n s = .next t ↔ 1 ≤ n ∧ repeatStep f n s = .next t := by
  cases n with
  | zero => simp
  | succ n => simp [counted]

/-! ## Fetching -/

@[simp] theorem fetch_nil {s : State} (h : s.trace = []) : fetch s = none := by simp [fetch, h]

theorem fetch_cons {s : State} {w : Word} {rest : List Word} (h : s.trace = w :: rest) :
    fetch s = some (w, { s with trace := rest }) := by simp [fetch, h]

/-- Everything `step` can do when it answers a next state: it ran the operation its first word decodes to. -/
theorem step_eq_next {s t : State} (h : step s = .next t) :
    ∃ w rest i, s.trace = w :: rest ∧ decode w = .stim i ∧ exec i { s with trace := rest } = .next t := by
  unfold step at h
  cases hs : s.trace with
  | nil => simp [fetch_nil hs] at h
  | cons w rest =>
    rw [fetch_cons hs] at h
    cases hw : decode w with
    | stim i => exact ⟨w, rest, i, rfl, hw, by simpa [hw] using h⟩
    | illegal why => simp [hw] at h

end Sys2Proof.Machine
end

