-- ==== Sys2Proof/Laws/PerInstr.lean ====
section
/-! SUPPORT. One statement about every operation as syntax: which code its word carries. -/

namespace Sys2Proof.Laws.CodeNibble

/-- The operation code of R84 and R85. -/
def code : Instr → Nat
  | .rise => 0x1
  | .fall => 0x2
  | .ctick _ => 0x3
  | .stick _ => 0x4
  | .mstep _ => 0x5
  | .reset => 0x6
  | .capr => 0x8
  | .capf => 0x9
  | .tmo => 0xA
  | .cmpa => 0xB
  | .cmpb => 0xC
  | .mtake => 0xD
  | .mspd => 0xE
  | .mind => 0xF

/-- The operation's word carries its code in bits [15:12], and its class of R80 shows in the code: stimulus codes lie
below 0x7, handler codes from 0x8. -/
def Statement (i : Instr) : Prop :=
  opField (encode i) = code i ∧ (if i.isStimulus then code i < 0x7 else 0x8 ≤ code i)

theorem rise : Statement .rise := ⟨opField_wordOf (by decide), by decide⟩
theorem fall : Statement .fall := ⟨opField_wordOf (by decide), by decide⟩
theorem ctick (n : Nat) : Statement (.ctick n) := ⟨opField_wordOf (by decide), by simp [Instr.isStimulus, code]⟩
theorem stick (n : Nat) : Statement (.stick n) := ⟨opField_wordOf (by decide), by simp [Instr.isStimulus, code]⟩
theorem mstep (n : Nat) : Statement (.mstep n) := ⟨opField_wordOf (by decide), by simp [Instr.isStimulus, code]⟩
theorem reset : Statement .reset := ⟨opField_wordOf (by decide), by decide⟩
theorem capr : Statement .capr := ⟨opField_wordOf (by decide), by decide⟩
theorem capf : Statement .capf := ⟨opField_wordOf (by decide), by decide⟩
theorem tmo : Statement .tmo := ⟨opField_wordOf (by decide), by decide⟩
theorem cmpa : Statement .cmpa := ⟨opField_wordOf (by decide), by decide⟩
theorem cmpb : Statement .cmpb := ⟨opField_wordOf (by decide), by decide⟩
theorem mtake : Statement .mtake := ⟨opField_wordOf (by decide), by decide⟩
theorem mspd : Statement .mspd := ⟨opField_wordOf (by decide), by decide⟩
theorem mind : Statement .mind := ⟨opField_wordOf (by decide), by decide⟩

end Sys2Proof.Laws.CodeNibble
end

