-- ==== Sys2Proof/Laws/SpeedTranslator.lean ====
section
/-! SUPPORT. Arithmetic of the speed translator. -/

namespace Sys2Proof.Machine

@[simp] theorem roundMag_zero {D : Nat} (hD : 1 ≤ D) : roundMag 0 D = 0 := by
  unfold roundMag; exact Nat.div_eq_of_lt (by omega)

theorem roundMag_mono {a b D : Nat} (h : a ≤ b) : roundMag a D ≤ roundMag b D := by
  unfold roundMag; exact Nat.div_le_div_right (by omega)

@[simp] theorem roundDiv_zero (D : Nat) : roundDiv 0 D = 0 := by simp [roundDiv]

@[simp] theorem roundDiv_neg (d : Int) (D : Nat) : roundDiv (-d) D = -roundDiv d D := by
  simp [roundDiv]

theorem roundDiv_natAbs_le (d : Int) (D : Nat) : (roundDiv d D).natAbs ≤ roundMag d.natAbs D := by
  rcases lt_trichotomy d 0 with h | rfl | h
  · simp [roundDiv, Int.sign_eq_neg_one_of_neg h]
  · simp
  · simp [roundDiv, Int.sign_eq_one_of_pos h]

theorem clampWidth_ge {cfg : Config} (h : cfg.CLAMP_LO ≤ cfg.CLAMP_HI) (w : Nat) :
    cfg.CLAMP_LO ≤ clampWidth cfg w := by unfold clampWidth; omega

theorem clampWidth_le (cfg : Config) (w : Nat) : clampWidth cfg w ≤ cfg.CLAMP_HI := by unfold clampWidth; omega

theorem clampWidth_mono (cfg : Config) {v w : Nat} (h : v ≤ w) : clampWidth cfg v ≤ clampWidth cfg w := by
  unfold clampWidth; omega

/-- The centred value never lies further from 0 than the clamped width from the centre. -/
theorem centred_cases (cfg : Config) (c : Nat) :
    centred cfg c = 0 ∨ centred cfg c = (c : Int) - (cfg.CENTER : Int) := by
  unfold centred; dsimp only; split
  · exact .inl rfl
  · exact .inr rfl

end Sys2Proof.Machine
end

