-- ==== Sys2Proof/Laws/Steps.lean ====
section
/-! SUPPORT. Everything each single step can do, as equations and as an inversion, so that no later proof splits its
definition again. -/

namespace Sys2Proof.Machine

/-! ## Handlers -/

@[simp] theorem execCapr_eq (s : State) : execCapr s = .next (s.withSt s.st.captureRise) := rfl
@[simp] theorem execCapf_eq (s : State) : execCapf s = .next (s.withSt s.st.captureFall) := rfl
@[simp] theorem execTmo_eq (s : State) : execTmo s = .next (s.withSt s.st.timeOut) := rfl
@[simp] theorem execCmpa_eq (s : State) : execCmpa s = .next (s.withSt s.st.startPeriod) := rfl
@[simp] theorem execCmpb_eq (s : State) : execCmpb s = .next (s.withSt s.st.recharge) := rfl
@[simp] theorem execMind_eq (s : State) : execMind s = .next (s.withSt s.st.showDirection) := rfl

theorem execMtake_cases {s t : State} (h : execMtake s = .next t) :
    (∃ w, s.st.ready = true ∧ s.st.sample = some w ∧ t = s.withSt (s.st.takeSample w)) ∨
    (s.st.ready = false ∧ s.st.tmo = true ∧ t = s.withSt s.st.takeTimeout) := by
  unfold execMtake at h
  by_cases hr : s.st.ready = true
  · cases hw : s.st.sample with
    | none => simp [hr, hw] at h
    | some w => exact .inl ⟨w, hr, rfl, by simpa [hr, hw] using h.symm⟩
  · by_cases ht : s.st.tmo = true
    · exact .inr ⟨by simpa using hr, ht, by simpa [hr, ht] using h.symm⟩
    · simp [hr, ht] at h

theorem execMspd_cases {s t : State} (h : execMspd s = .next t) :
    ∃ e, s.st.mev = some e ∧ t = s.withSt (s.st.publish (eventSpeed s.cfg e)) := by
  unfold execMspd at h
  cases he : s.st.mev with
  | none => simp [he] at h
  | some e => exact ⟨e, rfl, by simpa [he] using h.symm⟩

/-! ## Stimuli, one single step each -/

theorem execRise_cases {s t : State} (h : execRise s = .next t) :
    s.st.lvl = false ∧
    ((s.st.phase = .WR ∧ t = commit .rise (some .capr) (s.withSt (s.st.setLvl true).captureRise)) ∨
     (s.st.phase = .WF ∧ t = commit .rise none (s.withSt (s.st.setLvl true)))) := by
  unfold execRise at h
  by_cases hl : s.st.lvl = true
  · simp [hl] at h
  · refine ⟨by simpa using hl, ?_⟩
    cases hp : s.st.phase with
    | WR => exact .inl ⟨rfl, by simpa [hl, hp, service] using h.symm⟩
    | WF => exact .inr ⟨rfl, by simpa [hl, hp] using h.symm⟩

theorem execFall_cases {s t : State} (h : execFall s = .next t) :
    s.st.lvl = true ∧
    ((s.st.phase = .WF ∧ t = commit .fall (some .capf) (s.withSt (s.st.setLvl false).captureFall)) ∨
     (s.st.phase = .WR ∧ t = commit .fall none (s.withSt (s.st.setLvl false)))) := by
  unfold execFall at h
  by_cases hl : s.st.lvl = false
  · simp [hl] at h
  · refine ⟨by simpa using hl, ?_⟩
    cases hp : s.st.phase with
    | WF => exact .inl ⟨rfl, by simpa [hl, hp, service] using h.symm⟩
    | WR => exact .inr ⟨rfl, by simpa [hl, hp] using h.symm⟩

/-- A capture tick always has a next state, one of three (R113, R116). -/
theorem ctickOnce_cases (s : State) :
    (s.st.cap_run = true ∧ (s.st.cap_cnt + 1#16).toNat = s.cfg.TMO_TICKS ∧
      ctickOnce s = .next (commit (.ctick 1) (some .tmo) (s.withSt s.st.countCapture.timeOut))) ∨
    (s.st.cap_run = true ∧ (s.st.cap_cnt + 1#16).toNat ≠ s.cfg.TMO_TICKS ∧
      ctickOnce s = .next (commit (.ctick 1) none (s.withSt s.st.countCapture))) ∨
    (s.st.cap_run = false ∧ ctickOnce s = .next (commit (.ctick 1) none s)) := by
  unfold ctickOnce
  by_cases hr : s.st.cap_run = true
  · rw [if_pos hr, Cells.countCapture_cap_cnt]
    by_cases ht : (s.st.cap_cnt + 1#16).toNat = s.cfg.TMO_TICKS
    · exact .inl ⟨hr, ht, by rw [if_pos ht]; rfl⟩
    · exact .inr (.inl ⟨hr, ht, by rw [if_neg ht]⟩)
  · exact .inr (.inr ⟨by simpa using hr, if_neg hr⟩)

/-- A switching tick always has a next state, one of three (R162). -/
theorem stickOnce_cases (s : State) :
    (s.st.sw_cnt.toNat = s.cfg.SW_TOP ∧
      stickOnce s = .next (commit (.stick 1) (some .cmpa) (s.withSt s.st.wrapSwitch.startPeriod))) ∨
    (s.st.sw_cnt.toNat ≠ s.cfg.SW_TOP ∧ s.st.sw_cnt + 1#8 = s.st.thr ∧
      stickOnce s = .next (commit (.stick 1) (some .cmpb) (s.withSt s.st.countSwitch.recharge))) ∨
    (s.st.sw_cnt.toNat ≠ s.cfg.SW_TOP ∧ s.st.sw_cnt + 1#8 ≠ s.st.thr ∧
      stickOnce s = .next (commit (.stick 1) none (s.withSt s.st.countSwitch))) := by
  unfold stickOnce
  by_cases ha : s.st.sw_cnt.toNat = s.cfg.SW_TOP
  · exact .inl ⟨ha, by rw [if_pos ha]; rfl⟩
  · rw [if_neg ha, Cells.countSwitch_sw_cnt]
    by_cases hb : s.st.sw_cnt + 1#8 = s.st.thr
    · exact .inr (.inl ⟨ha, hb, by rw [if_pos hb]; rfl⟩)
    · exact .inr (.inr ⟨ha, hb, by rw [if_neg hb]⟩)

/-- A main-loop step is a spin or one of its three sub-actions (R201). -/
theorem mstepOnce_cases {s t : State} (h : mstepOnce s = .next t) :
    (s.st.mpc = Mpc.POLL ∧ s.st.eventPending = false ∧ t = commit (.mstep 1) none s) ∨
    (s.st.mpc = Mpc.POLL ∧ s.st.eventPending = true ∧
      ∃ u, execMtake s = .next u ∧ t = commit (.mstep 1) (some .mtake) u) ∨
    (s.st.mpc = Mpc.SPEED ∧ ∃ u, execMspd s = .next u ∧ t = commit (.mstep 1) (some .mspd) u) ∨
    (s.st.mpc = Mpc.IND ∧ t = commit (.mstep 1) (some .mind) (s.withSt s.st.showDirection)) := by
  unfold mstepOnce at h
  by_cases hp : s.st.mpc = Mpc.POLL
  · by_cases he : s.st.eventPending = true
    · rw [if_pos hp, if_pos he] at h
      exact .inr (.inl ⟨hp, he, service_eq_next.mp h⟩)
    · rw [if_pos hp, if_neg he] at h
      exact .inl ⟨hp, by simpa using he, by simpa using h.symm⟩
  · rw [if_neg hp] at h
    by_cases hs : s.st.mpc = Mpc.SPEED
    · rw [if_pos hs] at h
      exact .inr (.inr (.inl ⟨hs, service_eq_next.mp h⟩))
    · rw [if_neg hs] at h
      by_cases hi : s.st.mpc = Mpc.IND
      · rw [if_pos hi] at h
        obtain ⟨u, hu, ht⟩ := service_eq_next.mp h
        rw [execMind_eq, Host.Outcome.next.injEq] at hu
        exact .inr (.inr (.inr ⟨hi, by rw [ht, ← hu]⟩))
      · simp [hi] at h

end Sys2Proof.Machine
end

