-- ==== Sys2Proof/Tests/Slice0.lean ====
section
/-! SUPPORT. Small tests with results taken from spec/95_test_vectors.md and the rules' own examples, and one witness for the
hypotheses of every statement. -/

namespace Sys2Proof.Machine.Tests

open Sys2Proof Sys2Proof.Machine

/-- S0 of spec/95_test_vectors.md: core start with the line low. -/
def s0 : Cells := Cells.coreStart false

/-- A machine with the vectors' configuration, the given cells, and nothing applied or recorded. -/
def at109 (c : Cells) : State := { cfg := Config.source 109 false, st := c, trace := [], log := [] }

/-- The cells of a next state. -/
def cellsOf : Result → Option Cells
  | .next t => some t.st
  | .fault _ => none
  | .refused _ => none

/-- The history of a next state (R89). -/
def historyOf : Result → List Word
  | .next t => t.history
  | .fault _ => []
  | .refused _ => []

/-- The name of a refusal. -/
def refusalOf : Result → Option Refusal
  | .next _ => none
  | .fault _ => none
  | .refused why => some why

/-! ## Well-formedness: each check refuses an ill-formed term -/

theorem test_illformed_ctick : [Instr.ctick 0, .ctick 4096].all (fun i => !i.wellFormed) = true := by decide
theorem test_illformed_stick : [Instr.stick 0, .stick 4096].all (fun i => !i.wellFormed) = true := by decide
theorem test_illformed_mstep : [Instr.mstep 0, .mstep 4096].all (fun i => !i.wellFormed) = true := by decide
theorem test_wellformed_ends :
    [Instr.ctick 1, .ctick 4095, .stick 1, .stick 4095, .mstep 1, .mstep 4095, .rise, .mind].all Instr.wellFormed = true := by
  decide

/-! ## Decoding: words written out bit by bit from R81, R84, R85 -/

theorem test_decode_rise : decode 0b0001_000000000000#16 = .stim .rise := by decide
theorem test_decode_fall : decode 0b0010_000000000000#16 = .stim .fall := by decide
theorem test_decode_ctick : decode 0b0011_010111011100#16 = .stim (.ctick 1500) := by decide
theorem test_decode_stick : decode 0b0100_000001101110#16 = .stim (.stick 110) := by decide
theorem test_decode_mstep : decode 0b0101_000000000011#16 = .stim (.mstep 3) := by decide
theorem test_decode_reset : decode 0b0110_000000000000#16 = .stim .reset := by decide
theorem test_decode_capr : decodeAction 0b1000_000000000000#16 = some .capr := by decide
theorem test_decode_capf : decodeAction 0b1001_000000000000#16 = some .capf := by decide
theorem test_decode_tmo : decodeAction 0b1010_000000000000#16 = some .tmo := by decide
theorem test_decode_cmpa : decodeAction 0b1011_000000000000#16 = some .cmpa := by decide
theorem test_decode_cmpb : decodeAction 0b1100_000000000000#16 = some .cmpb := by decide
theorem test_decode_mtake : decodeAction 0b1101_000000000000#16 = some .mtake := by decide
theorem test_decode_mspd : decodeAction 0b1110_000000000000#16 = some .mspd := by decide
theorem test_decode_mind : decodeAction 0b1111_000000000000#16 = some .mind := by decide

/-- The illegal words of T7. -/
theorem test_decode_illegal :
    decode 0x0000#16 = .illegal .illegalOpcode ∧ decode 0x1001#16 = .illegal .operandNotZero ∧
    decode 0x3000#16 = .illegal .zeroCount ∧ decode 0x4000#16 = .illegal .zeroCount ∧
    decode 0x6001#16 = .illegal .operandNotZero ∧ decode 0x7000#16 = .illegal .reservedOpcode ∧
    decode 0x8000#16 = .illegal .historyOnlyCode ∧ decode 0xFFFF#16 = .illegal .historyOnlyCode := by decide

/-- A history code with bits in its operand field is no action (R85); the table's reader reads both formats. -/
theorem test_table_reader :
    decodeAction 0x8001#16 = none ∧ decodeTableWord 16 0x3FFF = some (.ctick 4095) ∧
    decodeTableWord 16 0xE000 = some .mspd ∧ decodeTableWord 16 0x7000 = none ∧ decodeTableWord 16 0x12345 = none := by
  decide

/-! ## The operations, one step each -/

/-- D1. -/
theorem test_rise_captures :
    cellsOf (exec .rise (at109 s0)) = some { s0 with lvl := true, phase := .WF } ∧
    historyOf (exec .rise (at109 s0)) = [0x1000#16, 0x8000#16] := by decide
/-- D15: an edge one step before the timeout prevents it. -/
theorem test_rise_before_timeout :
    cellsOf (exec .rise (at109 { s0 with cap_cnt := 19999#16 })) =
      some { s0 with lvl := true, phase := .WF, cap_cnt := 0#16 } := by decide
/-- D2. -/
theorem test_fall_captures :
    cellsOf (exec .fall (at109 { s0 with lvl := true, phase := .WF, cap_cnt := 1500#16 })) =
      some { s0 with sample := some 1500#16, ready := true } := by decide
/-- D8: after a timeout in the middle of a pulse the edge is ignored. -/
theorem test_fall_ignored :
    cellsOf (exec .fall (at109 { s0 with lvl := true, cap_cnt := 20000#16, cap_run := false, tmo := true })) =
      some { s0 with cap_cnt := 20000#16, cap_run := false, tmo := true } := by decide
/-- D7: TMO in the middle of a pulse. -/
theorem test_ctick_times_out :
    cellsOf (exec (.ctick 1) (at109 { s0 with lvl := true, phase := .WF, cap_cnt := 19999#16 })) =
      some { s0 with lvl := true, cap_cnt := 20000#16, cap_run := false, tmo := true } := by decide
/-- D6: a stopped counter. -/
theorem test_ctick_stopped :
    cellsOf (exec (.ctick 5) (at109 { s0 with cap_cnt := 20000#16, cap_run := false, tmo := true })) =
      some { s0 with cap_cnt := 20000#16, cap_run := false, tmo := true } := by decide
/-- S3: CMPA with a negative speed. -/
theorem test_stick_period_start :
    cellsOf (exec (.stick 1) (at109 { s0 with sw_cnt := 109#8, thr := 40#8, ms := (-60#8) })) =
      some { s0 with sw_cnt := 0#8, thr := 60#8, ms := (-60#8), hb := 0x6#4 } := by decide
/-- S6: SW_TOP = 100, compare B at the top count. -/
theorem test_stick_top_recharge :
    (let s := { at109 { s0 with sw_cnt := 99#8, thr := 100#8, hb := 0x9#4 } with cfg := Config.source 100 false }
     (cellsOf (exec (.stick 1) s)).map (fun c => (c.sw_cnt, c.hb)) = some (100#8, 0x5#4) ∧
     historyOf (exec (.stick 1) s) = [0x4001#16, 0xC000#16]) := by decide
/-- M3: the sample is taken before the timeout. -/
theorem test_mstep_takes_sample_first :
    cellsOf (exec (.mstep 1) (at109 { s0 with ready := true, sample := some 2400#16, tmo := true })) =
      some { s0 with sample := some 2400#16, tmo := true, mev := some (.sample 2400#16), mpc := 1#2 } := by decide
/-- M9: two events in six steps. -/
theorem test_mstep_two_events :
    cellsOf (exec (.mstep 6) (at109 { s0 with ready := true, sample := some 1700#16, tmo := true })) =
      some { s0 with sample := some 1700#16, prev := 40#8 } := by decide
/-- T9. -/
theorem test_reset_keeps_level :
    cellsOf (exec .reset (at109 { s0 with
      ms := 40#8, ind := 1#2, hb := 0x9#4, thr := 40#8, sample := some 1700#16, lvl := true, phase := .WF,
      cap_cnt := 5#16 })) = some { s0 with lvl := true } := by decide
/-- R117's example. -/
theorem test_capr :
    cellsOf (exec .capr (at109 { s0 with cap_cnt := 18500#16 })) = some { s0 with phase := .WF } := by decide
/-- R118's example. -/
theorem test_capf :
    cellsOf (exec .capf (at109 { s0 with phase := .WF, cap_cnt := 2400#16 })) =
      some { s0 with sample := some 2400#16, ready := true } := by decide
/-- R120: `cap_cnt` keeps its value and a pending sample stays. -/
theorem test_tmo :
    cellsOf (exec .tmo (at109 { s0 with phase := .WF, cap_cnt := 20000#16, ready := true, sample := some 7#16 })) =
      some { s0 with cap_cnt := 20000#16, cap_run := false, tmo := true, ready := true, sample := some 7#16 } := by
  decide
/-- R166's example. -/
theorem test_cmpa :
    cellsOf (exec .cmpa (at109 { s0 with ms := (-100#8) })) = some { s0 with ms := (-100#8), hb := 0x6#4, thr := 100#8 } := by
  decide
/-- R168's example. -/
theorem test_cmpb : cellsOf (exec .cmpb (at109 { s0 with hb := 0x9#4, thr := 40#8 })) = some { s0 with thr := 40#8 } := by
  decide
/-- M4. -/
theorem test_mtake_timeout :
    cellsOf (exec .mtake (at109 { s0 with tmo := true })) = some { s0 with mev := some .timeout, mpc := 1#2 } := by decide
/-- M5. -/
theorem test_mspd_sample :
    cellsOf (exec .mspd (at109 { s0 with mev := some (.sample 1700#16), mpc := 1#2, ms := (-100#8) })) =
      some { s0 with prev := (-100#8), ms := 40#8, mpc := 2#2 } := by decide
/-- R192's example, and the direct reversal of T5. -/
theorem test_mind :
    cellsOf (exec .mind (at109 { s0 with prev := 40#8, ind := 1#2, mpc := 2#2 })) = some { s0 with prev := 40#8 } ∧
    indicate 40 (-40) 1#2 = 2#2 := by decide

/-! ## Translator, launch, assembler, runs -/

/-- R150's edges and R147's smallest magnitude. -/
theorem test_translate_edges :
    (translate (Config.source 109 false) 2199#16).toInt = 100 ∧ (translate (Config.source 109 false) 2200#16).toInt = 0 ∧
    (translate (Config.source 109 false) 1424#16).toInt = -15 ∧
    (translate (Config.source 109 false) 1425#16).toInt = 0 := by decide

/-- R55: a launch state that breaks INV is refused (here clause 7: a forward indicator at speed 0). -/
theorem test_launch_refuses :
    refusalOf (launch (Config.source 109 false) { s0 with ind := 1#2 } []) = some .badLaunchState ∧
    refusalOf (launch (Config.source 99 false) s0 []) = some .badConfig ∧
    cellsOf (launch (Config.source 100 true) (Cells.coreStart true) []) = some (Cells.coreStart true) := by decide

/-- T8. -/
theorem test_assemble_split :
    AsmLine.assemble (Config.source 109 false) (.ctick 4096) = some [0x3FFF#16, 0x3001#16] ∧
    AsmLine.assemble (Config.source 109 false) (.ctick 8190) = some [0x3FFF#16, 0x3FFF#16] ∧
    AsmLine.assemble (Config.source 109 false) (.pulse 1700) = some [0x1000#16, 0x36A4#16, 0x2000#16] ∧
    AsmLine.assemble (Config.source 109 false) .period = some [0x406E#16] ∧
    AsmLine.assemble (Config.source 109 false) (.ctick 0) = none := by decide

/-- A hexadecimal operand and a comment, the two-operand line, and a pseudo-operation's operand, decimal only (R91, R93). -/
theorem test_assemble_text :
    parseLine ['c', 't', 'i', 'c', 'k', ' ', '0', 'x', '5', 'D', 'C', ' ', ';', 'x'] = some [.ctick 1500] ∧
    parseLine ['f', 'r', 'a', 'm', 'e', ' ', '1', ',', '2', '0'] = some [.frame 1 20] ∧
    parseLine ['l', 'o', 'w', ' ', '1', '8', '3', '0', '0'] = some [.low 18300] ∧
    parseLine ['l', 'o', 'w', ' ', '0', 'x', '1', '0'] = none ∧
    parseLine [' ', ';', 'r'] = some [] ∧ parseLine ['r', 'i', 's', 'e', ' ', '1'] = none := by decide

/-- P8: the run stops at the second word. -/
theorem test_run_refused :
    (let r := run { at109 s0 with trace := [0x1000#16, 0x1000#16] }
     r.2 = .refusedAt .levelAlreadyHigh ∧ r.1.st = { s0 with lvl := true, phase := .WF } ∧
     r.1.history = [0x1000#16, 0x8000#16]) := by decide

/-- R15, R231, R241. -/
theorem test_agents :
    agentOf (.stick 1) = some .SW_CLK ∧ agentOf .cmpa = none ∧ sourceOf .cmpb = some .midPeriod ∧
    contextOf .mspd = some .mainLoop ∧ contextOf .capf = some .interrupt ∧
    ledLines (Config.source 109 false) 3#2 = none := by decide

/-! ## Witnesses: a concrete state and operands for the hypotheses of each statement, clause by clause -/

/-- A switching counter at the end of its period, at full forward speed, the speed just published. -/
def periodEnd : Cells := { s0 with ms := 100#8, ind := 1#2, sw_cnt := 109#8, thr := 40#8 }

/-- TMO has run with the line high, a sample pending and an event in hand: the worst case of P10. -/
def worstCase : Cells :=
  { s0 with
    mev := some (.sample 1700#16), mpc := 1#2, ready := true, sample := some 1000#16, tmo := true, cap_cnt := 20000#16,
    cap_run := false, lvl := true }

/-- A timeout pending at POLL. -/
def timedOut : Cells := { s0 with tmo := true, cap_cnt := 20000#16, cap_run := false }

/-- Whether the machine with these cells satisfies clauses 1 to 6 of INV. -/
def meetsInv6 (c : Cells) : Bool := decide (at109 c).Inv6

/-- Whether the machine with these cells satisfies the inductive invariant. -/
def meetsReachInv (c : Cells) : Bool := decide (at109 c).ReachInv

theorem meetsInv6_iff (c : Cells) : meetsInv6 c = true ↔ (at109 c).Inv6 := decide_eq_true_iff

theorem meetsReachInv_iff (c : Cells) : meetsReachInv c = true ↔ (at109 c).ReachInv := decide_eq_true_iff

theorem witness_DecodeCaseTable :
    [0x1000#16, 0x2000#16, 0x3FFF#16, 0x4001#16, 0x5FFF#16, 0x6FFF#16, 0x0FFF#16, 0x7000#16, 0x8000#16, 0xFFFF#16].map
      (fun w : Word => w.toNat / 4096) = [1, 2, 3, 4, 5, 6, 0, 7, 8, 15] := by decide

theorem witness_DecodeOfEncode :
    (Instr.ctick 4095).wellFormed = true ∧ (Instr.ctick 4095).isStimulus = true ∧ Instr.mind.wellFormed = true ∧
    Instr.mind.isStimulus = false := by decide

theorem witness_EncodeOfDecode :
    decode 0x3FFF#16 = .stim (.ctick 4095) ∧ decode 0x3001#16 = .stim (.ctick 1) ∧ decodeAction 0xF000#16 = some .mind ∧
    (Instr.ctick 4095).wellFormed = true ∧ encode (.ctick 4095) = 0x3FFF#16 := by decide

theorem witness_AssemblerSplitsCounts :
    Instr.mstep ∈ [Instr.ctick, Instr.stick, Instr.mstep] ∧ (∀ n ∈ [1, 4095, 4096], 1 ≤ n) ∧
    AsmLine.assemble (Config.source 109 false) (.mstep 4096) = some [0x5FFF#16, 0x5001#16] :=
  ⟨by simp, by decide, by decide⟩

theorem witness_PseudoOperations : (1 : Nat) ≤ 1 ∧ (1 : Nat) < 2 ∧ (1 : Nat) ≤ 1 := by decide

theorem witness_StepRunsDecodedInstruction :
    ({ at109 s0 with trace := [0x3FFF#16, 0x1000#16] } : State).trace = 0x3FFF#16 :: [0x1000#16] ∧
    decode 0x3FFF#16 = .stim (.ctick 4095) := by decide

theorem witness_FetchWordIsRunNext :
    (Instr.stick 4095).wellFormed = true ∧ (Instr.stick 4095).isStimulus = true := by decide

theorem witness_TraceRefusals :
    decode 0x7000#16 = .illegal .reservedOpcode ∧
    (decode 0x1000#16 = .stim .rise ∧ (at109 { s0 with lvl := true }).st.lvl = true) ∧
    (decode 0x2000#16 = .stim .fall ∧ (at109 s0).st.lvl = false) ∧
    (decode 0x1000#16 = .stim .rise ∧ meetsInv6 s0 = true ∧ ¬(Instr.rise = .rise ∧ s0.lvl = true) ∧
      ¬(Instr.rise = .fall ∧ s0.lvl = false)) ∧
    refusalOf (step { at109 s0 with trace := [0x7000#16] }) = some (.illegal .reservedOpcode) := by decide

theorem witness_NoStepWithoutStimulus : State.reset.trace = [] := rfl

theorem witness_CountWordsRepeat :
    ∃ op ∈ [Instr.ctick, Instr.stick, Instr.mstep], op 4095 = .stick 4095 ∧ 1 ≤ 4095 ∧ 4095 ≤ 4095 :=
  ⟨Instr.stick, by simp, rfl, by decide, le_refl 4095⟩

theorem witness_LaunchStates :
    (ValidConfig (Config.source 100 true) ∧ ValidConfig (Config.source 255 false)) ∧
    worstCase.INV (Config.source 109 false) ∧ ¬({ s0 with ind := 3#2 } : Cells).INV (Config.source 109 false) :=
  ⟨by decide, by decide, by decide⟩

/-- One configuration at the boundary of each constraint of R9. -/
theorem witness_BadConfigurationsRefused :
    (let c := Config.source 109 false
     ({ c with TOL_LO := 1000 } : Config).CLAMP_LO ≤ ({ c with TOL_LO := 1000 } : Config).TOL_LO ∧
     ({ c with DEADBAND := 501 } : Config).CENTER < c.CLAMP_LO + 501 ∧
     c.CLAMP_HI < c.CENTER + 501 ∧ ({ c with CLAMP_HI := 2200 } : Config).TOL_HI ≤ 2200 ∧
     ({ c with DIVISOR := 0 } : Config).DIVISOR = 0 ∧ ({ c with TMO_TICKS := 2200 } : Config).TMO_TICKS ≤ c.TOL_HI ∧
     2 ^ c.CAP_W ≤ ({ c with TMO_TICKS := 65536 } : Config).TMO_TICKS ∧
     (Config.source 99 false).SW_TOP < c.SPEED_MAX ∧ 2 ^ c.SW_W ≤ (Config.source 256 false).SW_TOP) := by decide

theorem witness_ResetOperation : (at109 worstCase).st.lvl = true := by decide

theorem witness_CoreStartMeetsInvariant : ValidConfig (Config.source 100 true) ∧ ValidConfig (Config.source 255 false) := by
  decide

theorem witness_RiseEffect :
    (at109 { s0 with lvl := true }).st.lvl = true ∧ ((at109 s0).st.lvl = false ∧ (at109 s0).st.phase = .WR) ∧
    ((at109 { s0 with phase := .WF }).st.lvl = false ∧ (at109 { s0 with phase := .WF }).st.phase = .WF) := by decide

theorem witness_FallEffect :
    (at109 s0).st.lvl = false ∧
    ((at109 { s0 with lvl := true, phase := .WF }).st.lvl = true ∧
      (at109 { s0 with lvl := true, phase := .WF }).st.phase = .WF) ∧
    ((at109 { s0 with lvl := true }).st.lvl = true ∧ (at109 { s0 with lvl := true }).st.phase = .WR) := by decide

/-- Just below the timeout, at it, and stopped. -/
theorem witness_CaptureTick :
    (meetsInv6 { s0 with cap_cnt := 19998#16 } = true ∧ (19998#16).toNat + 1 < 20000) ∧
    (meetsInv6 { s0 with cap_cnt := 19999#16 } = true ∧ (19999#16).toNat + 1 = 20000) ∧
    (meetsInv6 timedOut = true ∧ (at109 timedOut).st.cap_run = false) := by decide

theorem witness_CaptureTicks :
    (meetsInv6 s0 = true ∧ s0.cap_run = true ∧ s0.cap_cnt.toNat + 19999 < (at109 s0).cfg.TMO_TICKS) ∧
    (at109 s0).cfg.TMO_TICKS ≤ s0.cap_cnt.toNat + 20000 ∧
    (meetsInv6 timedOut = true ∧ timedOut.cap_run = false) := by decide

/-- The longest pulse without a timeout, with the other agents' steps between. -/
theorem witness_PulseWidthIsTickCount :
    (let ops := [Instr.ctick 4095, .stick 110, .ctick 4095, .ctick 4095, .mstep 3, .ctick 4095, .ctick 3619]
     meetsInv6 s0 = true ∧ (at109 s0).st.lvl = false ∧ (at109 s0).st.phase = .WR ∧
     (∀ i ∈ ops, i.wellFormed = true ∧
       (agentOf i = some .CAP_CLK ∨ agentOf i = some .SW_CLK ∨ agentOf i = some .MAIN)) ∧
     (ops.map captureSteps).sum + 1 = (at109 s0).cfg.TMO_TICKS) := by decide

theorem witness_SelfHealing :
    meetsInv6 timedOut = true ∧ meetsInv6 worstCase = true ∧ worstCase.lvl = true ∧ worstCase.cap_run = false ∧
    timedOut.cap_run = false ∧ 1 ≤ 19999 ∧ 19999 < (at109 s0).cfg.TMO_TICKS := by decide

theorem witness_TranslateAgreesWithSource :
    (1000 ≤ (1000#16).toNat ∧ (1000#16).toNat ≤ 2000) ∧ (((1425#16).toNat : Int) - 1500).natAbs ≤ 75 ∧
    ¬(((1576#16).toNat : Int) - 1500).natAbs ≤ 75 ∧ (1000 ≤ (2000#16).toNat ∧ (2000#16).toNat ≤ 2000) ∧
    (800#16).toNat ≤ 800 ∧ 2200 ≤ (2200#16).toNat := by decide

theorem witness_TranslateFitsSpeed : ValidConfig (Config.source 100 false) := by decide

theorem witness_TranslateMonotone :
    800 < (801#16).toNat ∧ (801#16).toNat ≤ (2199#16).toNat ∧ (2199#16).toNat < 2200 := by decide

theorem witness_TranslateSymmetric : (0 : Nat) ≤ 1500 ∧ (1500 : Nat) ≤ 1500 := by decide

/-- Forward, backward and zero speed at the period's end; the tick that reaches `thr` and one that does not. -/
theorem witness_SwitchTick :
    (meetsInv6 periodEnd = true ∧ periodEnd.sw_cnt.toNat = (at109 periodEnd).cfg.SW_TOP ∧ 0 < periodEnd.ms.toInt) ∧
    ({ periodEnd with ms := (-100#8) } : Cells).ms.toInt < 0 ∧ ({ periodEnd with ms := 0#8 } : Cells).ms.toInt = 0 ∧
    (meetsInv6 { s0 with sw_cnt := 39#8, thr := 40#8, hb := 0x9#4 } = true ∧ (39#8).toNat ≠ 109 ∧ (40#8).toNat = 39 + 1) ∧
    (meetsInv6 s0 = true ∧ s0.sw_cnt.toNat ≠ 109 ∧ 1#8 ≠ s0.thr) := by decide

theorem witness_SwitchingPeriod : meetsInv6 periodEnd = true ∧ 1 ≤ 110 := by decide

/-- Both sides of the recharge point at full speed, and the top count; and a run with the other agents' steps between, one
of them publishing another speed. -/
theorem witness_DriveThenRecharge :
    meetsInv6 periodEnd = true ∧ periodEnd.sw_cnt.toNat = (at109 periodEnd).cfg.SW_TOP ∧
    (99 < periodEnd.ms.toInt.natAbs ∧ ¬100 < periodEnd.ms.toInt.natAbs ∧ 109 ≤ (at109 periodEnd).cfg.SW_TOP) ∧
    meetsInv6 { periodEnd with ms := (-1#8), ind := 2#2 } = true ∧
    (let ops : List Instr := [.rise, .ctick 9, .fall, .stick 60, .mstep 3, .stick 49]
     (∀ i ∈ ops, i.wellFormed = true ∧ i.isStimulus = true ∧ i ≠ .reset) ∧ (ops.map switchSteps).sum = 109 ∧
     (cellsOf (execAll (.stick 1 :: ops) (at109 periodEnd))).isSome = true) := by decide

/-- A whole period's ticks among steps of the other agents, as a run that goes on. -/
theorem witness_RechargeEveryPeriod :
    (let s : State := at109 periodEnd
     let ops : List Instr := [.stick 50, .rise, .mstep 1, .stick 60]
     meetsInv6 periodEnd = true ∧ s.st.sw_cnt.toNat = s.cfg.SW_TOP ∧ (∀ i ∈ ops, i.isStimulus = true ∧ i ≠ .reset) ∧
     s.cfg.SW_TOP + 1 ≤ (ops.map switchSteps).sum ∧ (cellsOf (execAll ops s)).isSome = true) := by decide

/-- An accepted configuration with short pulses: one tick a speed unit, centre 2, timeout at 5. -/
def shortPulses : Config :=
  { Config.source 100 false with
    TOL_LO := 0, CLAMP_LO := 1, CENTER := 2, DEADBAND := 0, CLAMP_HI := 3, TOL_HI := 4, TMO_TICKS := 5, DIVISOR := 1 }

/-- A spinning main loop and a captured pulse whose speed is not yet published; and a run whose speed is published and
drives. -/
theorem witness_RechargeUntilFirstSpeed :
    (let s : State := State.coreStart shortPulses []
     let still : List Instr := [.mstep 2, .rise, .ctick 3, .fall, .mstep 1, .stick 102]
     let drives : List Instr := [.rise, .ctick 3, .fall, .mstep 3, .stick 101]
     ValidConfig shortPulses ∧
     (∀ i ∈ still, i.isStimulus = true) ∧ (cellsOf (execAll still s)).isSome = true ∧
     (still.inits.all fun pre => (cellsOf (execAll pre s)).all fun c => c.ms == 0#8) = true ∧
     (∀ i ∈ drives, i.isStimulus = true) ∧
     (cellsOf (execAll drives s)).map (fun c => (c.ms, c.hb)) = some (1#8, 0x9#4)) := by decide

/-- Two machines that differ in their speed and agree on the scheduler's cells. -/
theorem witness_SpeedIsLatched :
    (meetsInv6 { s0 with sw_cnt := 5#8, thr := 100#8, hb := 0x9#4 } = true ∧
      meetsInv6 { s0 with sw_cnt := 5#8, thr := 100#8, hb := 0x9#4, ms := (-100#8), ind := 2#2 } = true ∧
      (5#8).toNat + 104 ≤ (at109 s0).cfg.SW_TOP ∧ 1 ≤ 104) ∧
    sameScheduler ({ s0 with sw_cnt := 5#8, thr := 100#8, hb := 0x9#4 } : Cells)
      { s0 with sw_cnt := 5#8, thr := 100#8, hb := 0x9#4, ms := (-100#8), ind := 2#2 } :=
  ⟨by decide, rfl, rfl, rfl⟩

theorem witness_NeutralPeriod :
    meetsInv6 { periodEnd with ms := 0#8, ind := 0#2 } = true ∧
    ({ periodEnd with ms := 0#8, ind := 0#2 } : Cells).sw_cnt.toNat = (at109 s0).cfg.SW_TOP ∧
    0 ≤ (at109 s0).cfg.SW_TOP ∧ 109 ≤ (at109 s0).cfg.SW_TOP := by decide

theorem witness_BridgeStates :
    hstate { s0 with hb := 0x9#4 } = .Forward ∧ hstate { s0 with hb := 0x6#4 } = .Backward ∧
    hstate s0 = .Neutral ∧ hstate { s0 with thr := 1#8 } = .RechargeWindow := by decide

theorem witness_PatternSwitches : safePattern 0x9#4 = true ∧ safePattern 0xC#4 = false ∧ safePattern 0x4#4 = false := by decide

theorem witness_OutputPatternsStaySafe :
    meetsInv6 periodEnd = true ∧ (cellsOf (step { at109 periodEnd with trace := [0x4001#16] })).isSome = true := by decide

/-- One pair of speeds for each row of R193, and two pairs of equal signs. -/
theorem witness_IndicatorTable :
    ((-40 : Int) < 0 ∧ (-100 : Int) < 0) ∧ ((-1 : Int) < 0 ∧ (0 : Int) = 0) ∧ ((-1 : Int) < 0 ∧ (0 : Int) < 1) ∧
    ((0 : Int) = 0 ∧ (-1 : Int) < 0) ∧ ((0 : Int) = 0 ∧ (0 : Int) < 1) ∧ ((0 : Int) < 1 ∧ (-1 : Int) < 0) ∧
    ((0 : Int) < 40 ∧ (0 : Int) < 100) ∧ Int.sign 40 = Int.sign 100 ∧ Int.sign (-1) = Int.sign (-100) := by decide

theorem witness_IndicatorStep :
    (at109 { s0 with mpc := 2#2 }).st.mpc = 2#2 ∧ (cellsOf (exec .mind (at109 { s0 with mpc := 2#2 }))).isSome = true := by
  decide

theorem witness_TakeEvent :
    ((at109 { s0 with ready := true, sample := some 1700#16, tmo := true }).st.mpc = 0#2 ∧
      (cellsOf (exec .mtake (at109 { s0 with ready := true, sample := some 1700#16, tmo := true }))).isSome = true) ∧
    ((at109 timedOut).st.ready = false ∧ (at109 timedOut).st.tmo = true) := by decide

theorem witness_PublishSpeed :
    (at109 worstCase).st.mpc = 1#2 ∧ (at109 worstCase).st.mev = some (.sample 1700#16) ∧
    (at109 { s0 with mev := some .timeout, mpc := 1#2 }).st.mev = some .timeout ∧
    (cellsOf (exec .mspd (at109 worstCase))).isSome = true := by decide

theorem witness_MainLoopStops :
    ((at109 { s0 with ready := true }).st.ready = true ∧ (at109 { s0 with ready := true }).st.sample = none) ∧
    ((at109 s0).st.ready = false ∧ (at109 s0).st.tmo = false ∧ (at109 s0).st.mev = none) ∧
    (at109 { s0 with mpc := 3#2 }).st.mpc = 3#2 ∧ meetsInv6 worstCase = true := by decide

theorem witness_MainLoopStep :
    ((at109 timedOut).st.mpc = 0#2 ∧ (at109 timedOut).st.tmo = true ∧
      (cellsOf (exec .mtake (at109 timedOut))).isSome = true) ∧
    ((at109 s0).st.mpc = 0#2 ∧ (at109 s0).st.ready = false ∧ (at109 s0).st.tmo = false) ∧
    ((at109 worstCase).st.mpc = 1#2 ∧ (cellsOf (exec .mspd (at109 worstCase))).isSome = true) ∧
    (at109 { s0 with mpc := 2#2 }).st.mpc = 2#2 ∧ meetsInv6 s0 = true := by decide

theorem witness_MainLoopNeverBlocks : meetsInv6 worstCase = true ∧ 1 ≤ 8 := by decide

theorem witness_SpinChangesNothing :
    (at109 s0).st.mpc = 0#2 ∧ (at109 s0).st.ready = false ∧ (at109 s0).st.tmo = false ∧ 1 ≤ 1 := by decide

theorem witness_EventTakesThreeSteps :
    ((at109 { s0 with ready := true, sample := some 0#16 }).st.mpc = 0#2 ∧
      (at109 { s0 with ready := true, sample := some 0#16 }).st.sample = some 0#16) ∧
    ((at109 timedOut).st.mpc = 0#2 ∧ (at109 timedOut).st.ready = false ∧ (at109 timedOut).st.tmo = true) := by decide

/-- P10's worst case, over eight main-loop steps with other agents' steps between, and the quick case. -/
theorem witness_TimeoutReachesZeroSpeed :
    (let s : State := at109 worstCase
     let ops : List Instr := [.mstep 3, .fall, .ctick 9, .stick 1, .mstep 5]
     meetsReachInv worstCase = true ∧ s.st.tmo = true ∧ s.st.cap_run = false ∧
     (∀ i ∈ ops, i.isStimulus = true ∧ i ≠ .rise ∧ i ≠ .reset) ∧ (cellsOf (execAll ops s)).isSome = true ∧
     (ops.map mainSteps).sum = 8 ∧ s.st.mpc = 1#2 ∧ s.st.ready = true ∧ s.st.sample = some 1000#16) ∧
    (meetsReachInv timedOut = true ∧ timedOut.mpc = 0#2 ∧ timedOut.ready = false) := by decide

/-- An infinite run in which the main loop alone runs, from a pending timeout: three steps for the event, then spins. -/
def fairRun : Nat → State
  | 0 => at109 timedOut
  | 1 => { at109 { timedOut with mev := some .timeout, tmo := false, mpc := 1#2 } with
           log := [⟨0x5001#16, some 0xD000#16, 0x5#4, 0#2⟩] }
  | 2 => { at109 { timedOut with tmo := false, mpc := 2#2 } with
           log := [⟨0x5001#16, some 0xE000#16, 0x5#4, 0#2⟩, ⟨0x5001#16, some 0xD000#16, 0x5#4, 0#2⟩] }
  | n + 3 => { at109 { timedOut with tmo := false } with
           log := List.replicate n ⟨0x5001#16, none, 0x5#4, 0#2⟩ ++
             [⟨0x5001#16, some 0xF000#16, 0x5#4, 0#2⟩, ⟨0x5001#16, some 0xE000#16, 0x5#4, 0#2⟩,
              ⟨0x5001#16, some 0xD000#16, 0x5#4, 0#2⟩] }

theorem fairRun_step : ∀ k, exec (.mstep 1) (fairRun k) = .next (fairRun (k + 1))
  | 0 => rfl
  | 1 => rfl
  | 2 => rfl
  | _ + 3 => rfl

theorem witness_FairRunsReachNeutral :
    ∃ (stimuli : Nat → Instr) (states : Nat → State),
      (states 0).ReachInv ∧ (states 0).st.tmo = true ∧ (states 0).st.cap_run = false ∧
      (∀ k, (stimuli k).isStimulus = true ∧ stimuli k ≠ .rise ∧ stimuli k ≠ .reset) ∧
      (∀ k, exec (stimuli k) (states k) = .next (states (k + 1))) ∧ FairToMain stimuli :=
  ⟨fun _ => .mstep 1, fairRun, by decide, by decide, by decide, fun _ => ⟨rfl, nofun, nofun⟩, fairRun_step,
    fun k => ⟨k, le_refl k, le_refl 1⟩⟩

theorem witness_StepKeepsInvariant :
    ({ at109 worstCase with trace := [0x5001#16] } : State).ReachInv ∧
    (cellsOf (step { at109 worstCase with trace := [0x5001#16] })).isSome = true := by decide

/-- A state at IND that satisfies the first six clauses and whose indicator does not show the sign of `prev`. -/
theorem witness_StepKeepsFirstSixClauses :
    ({ at109 { s0 with mpc := 2#2, ind := 1#2 } with trace := [0x5001#16] } : State).Inv6 ∧
    (cellsOf (step { at109 { s0 with mpc := 2#2, ind := 1#2 } with trace := [0x5001#16] })).isSome = true := by decide

theorem witness_RunsFromCoreStartSatisfyInv : ValidConfig (Config.source 100 true) := by decide

theorem witness_RunsFromLaunchNeverFault :
    (cellsOf (launch (Config.source 109 false) worstCase [0x5008#16])).isSome = true := by decide

/-- The same state satisfies INV as R53 states it, and its MIND answers a next state. -/
theorem witness_InvAloneIsInductive :
    ({ at109 { s0 with mpc := 2#2, ind := 1#2 } with trace := [0x5001#16] } : State).Inv ∧
    (cellsOf (step { at109 { s0 with mpc := 2#2, ind := 1#2 } with trace := [0x5001#16] })).isSome = true := by decide

theorem witness_CellsChangeOnlyByTheirWriters :
    (cellsOf (exec .rise (at109 s0))).isSome = true ∧ (cellsOf (exec (.mstep 1) (at109 worstCase))).isSome = true := by decide

theorem witness_OneHandlerPerStep :
    historyOf (exec (.stick 1) (at109 periodEnd)) = [0x4001#16, 0xB000#16] ∧
    historyOf (exec (.ctick 2) (at109 { s0 with cap_cnt := 19999#16 })) = [0x3001#16, 0xA000#16, 0x3001#16] := by decide

theorem witness_HistoryOnlyGrows : (cellsOf (exec (.ctick 2) (at109 s0))).isSome = true := by decide

end Sys2Proof.Machine.Tests
end

section
/-! Proofs about configurations and `launch` (spec/00_scope.md R9). -/

namespace Sys2Proof.Machine

/-- R9's upper bounds `2^CAP_W - 1` and `2^SW_W - 1` as strict bounds: a power of two is positive, so the truncated
subtraction loses nothing. -/
theorem counters_fit_of_meetsR9 {cfg : Config} (h : MeetsR9 cfg) :
    cfg.TMO_TICKS < 2 ^ cfg.CAP_W ∧ cfg.SW_TOP < 2 ^ cfg.SW_W := by
  obtain ⟨-, -, -, ⟨-, hTmo⟩, -, hTop⟩ := h
  exact ⟨Nat.lt_of_le_pred (Nat.two_pow_pos _) hTmo, Nat.lt_of_le_pred (Nat.two_pow_pos _) hTop⟩

/-- `launch` checks R9's list before anything else, so neither the widths nor the launch state matter (I16). -/
theorem launch_of_not_meetsR9 {cfg : Config} (h : ¬MeetsR9 cfg) (c : Cells) (ws : List Word) :
    launch cfg c ws = .refused .badConfig := if_neg h

/-- Settles O14: each of the nine alternatives contradicts one constraint of R9. -/
theorem badConfigurationsRefused : Obligations.BadConfigurationsRefused := by
  intro cfg c ws hbad
  refine launch_of_not_meetsR9 (fun hR9 => ?_) c ws
  obtain ⟨hTmoFits, hTopFits⟩ := counters_fit_of_meetsR9 hR9
  obtain ⟨⟨hTolLo, hCenterLo⟩, ⟨hCenterHi, hTolHi⟩, hDivisor, ⟨hTmo, -⟩, hTop, -⟩ := hR9
  rcases hbad with h | h | h | h | h | h | h | h | h
  · exact Nat.not_lt.mpr h hTolLo
  · exact Nat.not_le.mpr h hCenterLo
  · exact Nat.not_le.mpr h hCenterHi
  · exact Nat.not_lt.mpr h hTolHi
  · exact Nat.ne_of_gt hDivisor h
  · exact Nat.not_lt.mpr h hTmo
  · exact Nat.not_lt.mpr h hTmoFits
  · exact Nat.not_le.mpr h hTop
  · exact Nat.not_lt.mpr h hTopFits

end Sys2Proof.Machine
end

section
/-! Proofs: the range of the speed translator and the bounds of an accepted configuration (spec/00_scope.md R9,
spec/41_speed_translator.md R141, R146). -/

namespace Sys2Proof.Machine

/-- The timers of an accepted configuration fit their cells, and a period is longer than every drive phase. -/
theorem timers_fit_of_validConfig {cfg : Config} (h : ValidConfig cfg) :
    0 < cfg.TMO_TICKS ∧ cfg.TMO_TICKS < 65536 ∧ 100 ≤ cfg.SW_TOP ∧ cfg.SW_TOP < 256 := by
  obtain ⟨hR9, hCapW, -, hSwW, hMax, -⟩ := h
  obtain ⟨hTmoFits, hTopFits⟩ := counters_fit_of_meetsR9 hR9
  obtain ⟨-, -, -, ⟨hTmo, -⟩, hTop, -⟩ := hR9
  rw [hCapW] at hTmoFits
  rw [hSwW] at hTopFits
  exact ⟨by omega, hTmoFits, hMax ▸ hTop, hTopFits⟩

/-- A clamped width lies no further from the centre than one end of the clamp band. -/
theorem centred_natAbs_le {cfg : Config} (h : MeetsR9 cfg) (w : Nat) :
    (centred cfg (clampWidth cfg w)).natAbs ≤ cfg.CLAMP_HI - cfg.CENTER ∨
    (centred cfg (clampWidth cfg w)).natAbs ≤ cfg.CENTER - cfg.CLAMP_LO := by
  obtain ⟨⟨-, hLo⟩, ⟨hHi, -⟩, -⟩ := h
  have hge := clampWidth_ge (cfg := cfg) (by omega) w
  have hle := clampWidth_le cfg w
  rcases centred_cases cfg (clampWidth cfg w) with h | h <;> omega

theorem speedOfWidth_natAbs_le {cfg : Config} (h : ValidConfig cfg) (w : Nat) :
    (speedOfWidth cfg w).natAbs ≤ 100 := by
  obtain ⟨hR9, -, -, -, hMax, hHi, hLo⟩ := h
  rw [hMax] at hHi hLo
  unfold speedOfWidth
  split
  · decide
  · refine (roundDiv_natAbs_le _ _).trans ?_
    rcases centred_natAbs_le hR9 w with hd | hd
    · exact (roundMag_mono hd).trans hHi
    · exact (roundMag_mono hd).trans hLo

/-- The narrowing of R146 loses nothing. -/
theorem translate_toInt {cfg : Config} (h : ValidConfig cfg) (w : CapTicks) :
    (translate cfg w).toInt = speedOfWidth cfg w.toNat := by
  have hle := speedOfWidth_natAbs_le h w.toNat
  exact BitVec.toInt_ofInt_eq_self (by decide) (by omega) (by omega)

theorem eventSpeed_natAbs_le {cfg : Config} (h : ValidConfig cfg) (e : Event) :
    (eventSpeed cfg e).toInt.natAbs ≤ 100 := by
  cases e with
  | sample w => exact translate_toInt h w ▸ speedOfWidth_natAbs_le h w.toNat
  | timeout => exact (by decide : (0#8).toInt.natAbs ≤ 100)

end Sys2Proof.Machine
end

section
/-! Proofs: which cells an operation writes (spec/10_state.md R20, R54, spec/60_exceptions.md R241). -/

namespace Sys2Proof.Machine

/-- What an operation must leave of the machine: the cells it does not own, the configuration and the trace. -/
def Frame (i : Instr) (s t : State) : Prop :=
  ownedUnchanged s.st t.st i ∧ t.cfg = s.cfg ∧ t.trace = s.trace

theorem ownedUnchanged_refl (c : Cells) (i : Instr) : ownedUnchanged c c i := by
  cases i <;> simp [ownedUnchanged, sameDecoder, sameScheduler, sameMainLoop, sameFlags]

theorem Frame.refl (i : Instr) (s : State) : Frame i s s := ⟨ownedUnchanged_refl s.st i, rfl, rfl⟩

/-! The updates below write only cells their operation owns, so the cells it does not own are the old ones by
definition: `Frame.refl`, and for a repeated single step the hypothesis itself, is the proof in each case. -/

theorem execRise_frame {s t : State} (h : execRise s = .next t) : Frame .rise s t := by
  obtain ⟨-, ⟨-, rfl⟩ | ⟨-, rfl⟩⟩ := execRise_cases h
  · exact Frame.refl .rise s
  · exact Frame.refl .rise s

theorem execFall_frame {s t : State} (h : execFall s = .next t) : Frame .fall s t := by
  obtain ⟨-, ⟨-, rfl⟩ | ⟨-, rfl⟩⟩ := execFall_cases h
  · exact Frame.refl .fall s
  · exact Frame.refl .fall s

theorem execMtake_frame {s t : State} (h : execMtake s = .next t) : Frame .mtake s t := by
  obtain ⟨w, -, -, rfl⟩ | ⟨-, -, rfl⟩ := execMtake_cases h
  · exact Frame.refl .mtake s
  · exact Frame.refl .mtake s

theorem execMspd_frame {s t : State} (h : execMspd s = .next t) : Frame .mspd s t := by
  obtain ⟨e, -, rfl⟩ := execMspd_cases h
  exact Frame.refl .mspd s

theorem ctickOnce_frame {n : Nat} {s u t : State} (hu : Frame (.ctick n) s u) (h : ctickOnce u = .next t) :
    Frame (.ctick n) s t := by
  rcases ctickOnce_cases u with ⟨-, -, hc⟩ | ⟨-, -, hc⟩ | ⟨-, hc⟩ <;> cases hc.symm.trans h
  · exact hu
  · exact hu
  · exact hu

theorem stickOnce_frame {n : Nat} {s u t : State} (hu : Frame (.stick n) s u) (h : stickOnce u = .next t) :
    Frame (.stick n) s t := by
  rcases stickOnce_cases u with ⟨-, hc⟩ | ⟨-, -, hc⟩ | ⟨-, -, hc⟩ <;> cases hc.symm.trans h
  · exact hu
  · exact hu
  · exact hu

theorem mstepOnce_frame {n : Nat} {s u t : State} (hu : Frame (.mstep n) s u) (h : mstepOnce u = .next t) :
    Frame (.mstep n) s t := by
  obtain ⟨-, -, rfl⟩ | ⟨-, -, v, hv, rfl⟩ | ⟨-, v, hv, rfl⟩ | ⟨-, rfl⟩ := mstepOnce_cases h
  · exact hu
  · obtain ⟨w, -, -, rfl⟩ | ⟨-, -, rfl⟩ := execMtake_cases hv
    · exact hu
    · exact hu
  · obtain ⟨e, -, rfl⟩ := execMspd_cases hv
    exact hu
  · exact hu

/-- A count operation leaves what its single steps leave. -/
theorem counted_frame {i : Instr} {f : State → Result}
    (one : ∀ s u t, Frame i s u → f u = .next t → Frame i s t) {n : Nat} {s t : State}
    (h : counted f n s = .next t) : Frame i s t :=
  repeatStep_keeps (one s) n s t (Frame.refl i s) (counted_eq_next.mp h).2

theorem exec_frame {i : Instr} {s t : State} (h : exec i s = .next t) : Frame i s t := by
  cases i with
  | rise => exact execRise_frame h
  | fall => exact execFall_frame h
  | ctick n => exact counted_frame (fun _ _ _ => ctickOnce_frame) h
  | stick n => exact counted_frame (fun _ _ _ => stickOnce_frame) h
  | mstep n => exact counted_frame (fun _ _ _ => mstepOnce_frame) h
  | mtake => exact execMtake_frame h
  | mspd => exact execMspd_frame h
  | reset => cases h; exact Frame.refl .reset s
  | capr => cases h; exact Frame.refl .capr s
  | capf => cases h; exact Frame.refl .capf s
  | tmo => cases h; exact Frame.refl .tmo s
  | cmpa => cases h; exact Frame.refl .cmpa s
  | cmpb => cases h; exact Frame.refl .cmpb s
  | mind => cases h; exact Frame.refl .mind s

/-- Settles O57: the frame of each operation. -/
theorem cellsChangeOnlyByTheirWriters : Obligations.CellsChangeOnlyByTheirWriters :=
  fun _ _ _ h => exec_frame h

end Sys2Proof.Machine
end

section
/-! Proofs: clauses 1 to 6 of INV under each update of the cells (spec/10_state.md R53). An update leaves the clauses on the
cells it does not write as they were, by definition; each lemma shows the others. -/

namespace Sys2Proof.Machine

theorem Cells.coreStart_INV {cfg : Config} (hv : ValidConfig cfg) (level : Bool) :
    (Cells.coreStart level).INV cfg := by
  obtain ⟨hTmo, -⟩ := timers_fit_of_validConfig hv
  simp [Cells.INV, Cells.SpeedsInRange, Cells.CodesLegal, Cells.CounterLegal, Cells.SampleLegal, Cells.EventLegal,
    Cells.RechargeLegal, Cells.IndicatorLegal, signCode, hTmo]

theorem Cells.INV.inv6 {cfg : Config} {c : Cells} (h : c.INV cfg) : c.INV6 cfg := by
  obtain ⟨hSpeeds, hCodes, hCounter, hSample, hEvent, hRecharge, -⟩ := h
  exact ⟨hSpeeds, hCodes, hCounter, hSample, hEvent, hRecharge⟩

section
variable {cfg : Config} {c : Cells}

theorem Cells.resetKeepLvl_INV6 (hv : ValidConfig cfg) : c.resetKeepLvl.INV6 cfg :=
  (Cells.coreStart_INV hv c.lvl).inv6

/-- A captured edge restarts the counter at 0, below every timeout (R117). -/
theorem Cells.INV6.captureRise (hv : ValidConfig cfg) (h : c.INV6 cfg) : c.captureRise.INV6 cfg := by
  obtain ⟨hSpeeds, hCodes, -, hSample, hEvent, hRecharge⟩ := h
  obtain ⟨hTmo, -⟩ := timers_fit_of_validConfig hv
  exact ⟨hSpeeds, hCodes, ⟨Nat.zero_le _, fun _ => hTmo, nofun⟩, hSample, hEvent, hRecharge⟩

/-- A falling edge is captured in WF only, where the counter runs, so the sample is below the timeout (R118). -/
theorem Cells.INV6.captureFall (hv : ValidConfig cfg) (h : c.INV6 cfg) (hp : c.phase = .WF) :
    c.captureFall.INV6 cfg := by
  obtain ⟨hSpeeds, hCodes, ⟨-, hRun, hStop⟩, -, hEvent, hRecharge⟩ := h
  obtain ⟨hTmo, -⟩ := timers_fit_of_validConfig hv
  have hWidth : c.cap_cnt.toNat < cfg.TMO_TICKS := by
    cases hr : c.cap_run with
    | true => exact hRun hr
    | false => exact absurd (hStop hr).2 (by simp [hp])
  exact ⟨hSpeeds, hCodes, ⟨Nat.zero_le _, fun _ => hTmo, nofun⟩, fun _ => by simpa using hWidth, hEvent, hRecharge⟩

/-- A running counter counts without wrapping (R113). -/
theorem Cells.INV6.cap_cnt_succ (hv : ValidConfig cfg) (h : c.INV6 cfg) (hr : c.cap_run = true) :
    (c.cap_cnt + 1#16).toNat = c.cap_cnt.toNat + 1 ∧ c.cap_cnt.toNat + 1 ≤ cfg.TMO_TICKS := by
  obtain ⟨-, -, ⟨-, hRun, -⟩, -⟩ := h
  obtain ⟨-, hTmo, -⟩ := timers_fit_of_validConfig hv
  have hlt := hRun hr
  exact ⟨BitVec.toNat_add_of_lt (by simp; omega), hlt⟩

/-- The tick that reaches the timeout stops the counter there (R120). -/
theorem Cells.INV6.countCapture_timeOut (h : c.INV6 cfg) (ht : (c.cap_cnt + 1#16).toNat = cfg.TMO_TICKS) :
    c.countCapture.timeOut.INV6 cfg := by
  obtain ⟨hSpeeds, hCodes, -, hSample, hEvent, hRecharge⟩ := h
  exact ⟨hSpeeds, hCodes, ⟨ht.le, nofun, fun _ => ⟨ht, rfl⟩⟩, hSample, hEvent, hRecharge⟩

/-- Any other tick leaves a running counter below the timeout (R113). -/
theorem Cells.INV6.countCapture (hv : ValidConfig cfg) (h : c.INV6 cfg) (hr : c.cap_run = true)
    (ht : (c.cap_cnt + 1#16).toNat ≠ cfg.TMO_TICKS) : c.countCapture.INV6 cfg := by
  obtain ⟨hEq, hLe⟩ := h.cap_cnt_succ hv hr
  obtain ⟨hSpeeds, hCodes, -, hSample, hEvent, hRecharge⟩ := h
  have hlt : (c.cap_cnt + 1#16).toNat < cfg.TMO_TICKS := by omega
  exact ⟨hSpeeds, hCodes, ⟨hlt.le, fun _ => hlt, fun hs => absurd (hr.symm.trans hs) (by decide)⟩, hSample, hEvent,
    hRecharge⟩

/-- Below its top the switching counter counts without wrapping (R162). -/
theorem Cells.INV6.sw_cnt_succ (hv : ValidConfig cfg) (h : c.INV6 cfg) (ht : c.sw_cnt.toNat ≠ cfg.SW_TOP) :
    (c.sw_cnt + 1#8).toNat = c.sw_cnt.toNat + 1 ∧ c.sw_cnt.toNat + 1 ≤ cfg.SW_TOP := by
  obtain ⟨⟨-, -, -, hLe⟩, -⟩ := h
  obtain ⟨-, -, -, hTop⟩ := timers_fit_of_validConfig hv
  have hlt : c.sw_cnt.toNat < cfg.SW_TOP := Nat.lt_of_le_of_ne hLe ht
  exact ⟨BitVec.toNat_add_of_lt (by simp; omega), hlt⟩

/-- The threshold CMPA writes is the magnitude of the speed, as a number (R166). -/
theorem Cells.startPeriod_thr_toNat (c : Cells) : c.startPeriod.thr.toNat = c.ms.toInt.natAbs := by
  have := BitVec.le_toInt c.ms
  have := BitVec.toInt_lt (x := c.ms)
  simp only [Cells.startPeriod_thr, BitVec.toNat_ofNat]
  omega

/-- CMPA's pattern is a drive pattern for a speed other than 0 (R166). -/
theorem Cells.startPeriod_hb_drive {c : Cells} (h : c.ms.toInt ≠ 0) :
    c.startPeriod.hb = Hb.FWD ∨ c.startPeriod.hb = Hb.BWD := by
  rcases lt_or_gt_of_ne h with hneg | hpos
  · exact .inr (by simp [hneg, hneg.le.not_gt])
  · exact .inl (by simp [hpos])

/-- At speed 0 CMPA leaves the pattern (R166). -/
theorem Cells.startPeriod_hb_zero {c : Cells} (h : c.ms.toInt = 0) : c.startPeriod.hb = c.hb := by simp [h]

/-- The period ends recharging, since the threshold lies at or below the top; a speed other than 0 then drives from count 0
and speed 0 goes on recharging (R170). -/
theorem Cells.INV6.wrapSwitch_startPeriod (hv : ValidConfig cfg) (h : c.INV6 cfg)
    (ht : c.sw_cnt.toNat = cfg.SW_TOP) : c.wrapSwitch.startPeriod.INV6 cfg := by
  obtain ⟨⟨hMs, hPrev, hThr, -⟩, ⟨-, hInd, hMpc⟩, hCounter, hSample, hEvent, hRch, -⟩ := h
  obtain ⟨-, -, hTop, -⟩ := timers_fit_of_validConfig hv
  have hOld : c.hb = Hb.RCH := hRch (by omega)
  have hNew : c.wrapSwitch.startPeriod.thr.toNat = c.ms.toInt.natAbs := c.wrapSwitch.startPeriod_thr_toNat
  have hSpeeds : c.wrapSwitch.startPeriod.SpeedsInRange cfg := ⟨hMs, hPrev, by omega, Nat.zero_le _⟩
  by_cases hz : c.ms.toInt = 0
  · have hHb : c.wrapSwitch.startPeriod.hb = Hb.RCH := (Cells.startPeriod_hb_zero (c := c.wrapSwitch) hz).trans hOld
    exact ⟨hSpeeds, ⟨.inr (.inr hHb), hInd, hMpc⟩, hCounter, hSample, hEvent, fun _ => hHb,
      fun hlt => absurd hlt (by rw [hNew, hz]; exact Nat.not_lt_zero _)⟩
  · have hHb : c.wrapSwitch.startPeriod.hb = Hb.FWD ∨ c.wrapSwitch.startPeriod.hb = Hb.BWD :=
      Cells.startPeriod_hb_drive (c := c.wrapSwitch) hz
    exact ⟨hSpeeds, ⟨hHb.imp_right .inl, hInd, hMpc⟩, hCounter, hSample, hEvent,
      fun hle => absurd (Int.natAbs_eq_zero.mp (Nat.le_zero.mp (hNew ▸ hle))) hz, fun _ => hHb⟩

/-- The count that reaches the threshold recharges (R168). -/
theorem Cells.INV6.countSwitch_recharge (hv : ValidConfig cfg) (h : c.INV6 cfg) (ht : c.sw_cnt.toNat ≠ cfg.SW_TOP)
    (hm : c.sw_cnt + 1#8 = c.thr) : c.countSwitch.recharge.INV6 cfg := by
  obtain ⟨hEq, hLe⟩ := h.sw_cnt_succ hv ht
  obtain ⟨⟨hMs, hPrev, hThr, -⟩, ⟨-, hInd, hMpc⟩, hCounter, hSample, hEvent, -⟩ := h
  exact ⟨⟨hMs, hPrev, hThr, hEq ▸ hLe⟩, ⟨.inr (.inr rfl), hInd, hMpc⟩, hCounter, hSample, hEvent, fun _ => rfl,
    fun hlt => absurd (congrArg BitVec.toNat hm) (Nat.ne_of_lt hlt)⟩

/-- A count that does not meet the threshold stays on its side of it (R170). -/
theorem Cells.INV6.countSwitch (hv : ValidConfig cfg) (h : c.INV6 cfg) (ht : c.sw_cnt.toNat ≠ cfg.SW_TOP)
    (hm : c.sw_cnt + 1#8 ≠ c.thr) : c.countSwitch.INV6 cfg := by
  obtain ⟨hEq, hLe⟩ := h.sw_cnt_succ hv ht
  obtain ⟨⟨hMs, hPrev, hThr, -⟩, hCodes, hCounter, hSample, hEvent, hRch, hDrive⟩ := h
  have hne : (c.sw_cnt + 1#8).toNat ≠ c.thr.toNat := fun he => hm (BitVec.eq_of_toNat_eq he)
  refine ⟨⟨hMs, hPrev, hThr, hEq ▸ hLe⟩, hCodes, hCounter, hSample, hEvent, fun hle => hRch ?_, fun hlt => hDrive ?_⟩
  · simp only [Cells.countSwitch_thr, Cells.countSwitch_sw_cnt] at hle
    omega
  · simp only [Cells.countSwitch_thr, Cells.countSwitch_sw_cnt] at hlt
    omega

/-- MTAKE hands over a width the decoder recorded (R203). -/
theorem Cells.INV6.takeSample (h : c.INV6 cfg) {w : CapTicks} (hr : c.ready = true) (hw : c.sample = some w) :
    (c.takeSample w).INV6 cfg := by
  obtain ⟨hSpeeds, ⟨hHb, hInd, -⟩, hCounter, hSample, -, hRecharge⟩ := h
  have hWidth : w.toNat < cfg.TMO_TICKS := by simpa [hw] using hSample hr
  exact ⟨hSpeeds, ⟨hHb, hInd, .inr (.inl rfl)⟩, hCounter, nofun, ⟨by simp, by simpa [Event.inRange] using hWidth⟩,
    hRecharge⟩

theorem Cells.INV6.takeTimeout (h : c.INV6 cfg) : c.takeTimeout.INV6 cfg := by
  obtain ⟨hSpeeds, ⟨hHb, hInd, -⟩, hCounter, hSample, -, hRecharge⟩ := h
  exact ⟨hSpeeds, ⟨hHb, hInd, .inr (.inl rfl)⟩, hCounter, hSample, ⟨by simp, by simp [Event.inRange]⟩, hRecharge⟩

theorem Cells.INV6.publish (h : c.INV6 cfg) {v : Speed} (hle : v.toInt.natAbs ≤ 100) : (c.publish v).INV6 cfg := by
  obtain ⟨⟨hMs, -, hThr, hSw⟩, ⟨hHb, hInd, -⟩, hCounter, hSample, -, hRecharge⟩ := h
  have hv : -100 ≤ v.toInt ∧ v.toInt ≤ 100 := by omega
  exact ⟨⟨hv, hMs, hThr, hSw⟩, ⟨hHb, hInd, .inr (.inr rfl)⟩, hCounter, hSample, ⟨by simp, by simp⟩, hRecharge⟩

theorem indicate_legal {prev new : Int} {cur : BitVec 2} (h : cur = Ind.NEU ∨ cur = Ind.FWD ∨ cur = Ind.BWD) :
    indicate prev new cur = Ind.NEU ∨ indicate prev new cur = Ind.FWD ∨ indicate prev new cur = Ind.BWD := by
  unfold indicate
  split_ifs
  · exact .inr (.inl rfl)
  · exact .inr (.inr rfl)
  · exact .inl rfl
  · exact h

/-- MIND runs at IND, where no event is in hand (R205). -/
theorem Cells.INV6.showDirection (h : c.INV6 cfg) (hi : c.mpc = Mpc.IND) : c.showDirection.INV6 cfg := by
  obtain ⟨hSpeeds, ⟨hHb, hInd, -⟩, hCounter, hSample, ⟨hMev, hRange⟩, hRecharge⟩ := h
  have hNone : ¬c.mev.isSome = true := fun hs => Mpc.IND_ne_SPEED (hi.symm.trans (hMev.mp hs))
  exact ⟨hSpeeds, ⟨hHb, indicate_legal hInd, .inl rfl⟩, hCounter, hSample,
    ⟨⟨fun hs => absurd hs hNone, fun hs => absurd hs Mpc.POLL_ne_SPEED⟩, hRange⟩, hRecharge⟩

end

end Sys2Proof.Machine
end

section
/-! Proofs: every stimulus step keeps clauses 1 to 6 of INV and none faults (spec/10_state.md R53, spec/44_control_loop.md
R205, R209). -/

namespace Sys2Proof.Machine

/-- Where an invariant makes every single step go on, a count word goes on. -/
theorem counted_completes {f : State → Result} {P : State → Prop} (one : ∀ s, P s → ∃ t, f s = .next t ∧ P t)
    {n : Nat} (hn : 1 ≤ n) {s : State} (hs : P s) : ∃ t, counted f n s = .next t ∧ P t :=
  counted_pos f hn s ▸ repeatStep_completes one n s hs

theorem ctickOnce_of_inv6 {s : State} (h : s.Inv6) : ∃ t, ctickOnce s = .next t ∧ t.Inv6 := by
  obtain ⟨hv, hc⟩ := h
  rcases ctickOnce_cases s with ⟨-, ht, he⟩ | ⟨hr, ht, he⟩ | ⟨-, he⟩
  · exact ⟨_, he, hv, hc.countCapture_timeOut ht⟩
  · exact ⟨_, he, hv, hc.countCapture hv hr ht⟩
  · exact ⟨_, he, hv, hc⟩

theorem stickOnce_of_inv6 {s : State} (h : s.Inv6) : ∃ t, stickOnce s = .next t ∧ t.Inv6 := by
  obtain ⟨hv, hc⟩ := h
  rcases stickOnce_cases s with ⟨ht, he⟩ | ⟨ht, hm, he⟩ | ⟨ht, hm, he⟩
  · exact ⟨_, he, hv, hc.wrapSwitch_startPeriod hv ht⟩
  · exact ⟨_, he, hv, hc.countSwitch_recharge hv ht hm⟩
  · exact ⟨_, he, hv, hc.countSwitch hv ht hm⟩

/-! ## The equations of MTAKE, MSPD and MSTEP, one for each case of R201, R203 and R204 -/

theorem execMtake_of_sample {s : State} {w : CapTicks} (hr : s.st.ready = true) (hw : s.st.sample = some w) :
    execMtake s = .next (s.withSt (s.st.takeSample w)) := by simp [execMtake, hr, hw]

theorem execMtake_of_no_sample {s : State} (hr : s.st.ready = true) (hw : s.st.sample = none) :
    execMtake s = .fault .sampleNoValue := by simp [execMtake, hr, hw]

theorem execMtake_of_timeout {s : State} (hr : s.st.ready = false) (ht : s.st.tmo = true) :
    execMtake s = .next (s.withSt s.st.takeTimeout) := by simp [execMtake, hr, ht]

theorem execMtake_of_no_event {s : State} (hr : s.st.ready = false) (ht : s.st.tmo = false) :
    execMtake s = .refused .noEventPending := by simp [execMtake, hr, ht]

theorem execMspd_of_event {s : State} {e : Event} (he : s.st.mev = some e) :
    execMspd s = .next (s.withSt (s.st.publish (eventSpeed s.cfg e))) := by simp [execMspd, he]

theorem execMspd_of_no_event {s : State} (he : s.st.mev = none) : execMspd s = .fault .eventNoValue := by
  simp [execMspd, he]

theorem mstepOnce_of_spin {s : State} (hp : s.st.mpc = Mpc.POLL) (he : s.st.eventPending = false) :
    mstepOnce s = .next (commit (.mstep 1) none s) := by simp [mstepOnce, hp, he]

theorem mstepOnce_of_poll {s : State} (hp : s.st.mpc = Mpc.POLL) (he : s.st.eventPending = true) :
    mstepOnce s = service (.mstep 1) .mtake execMtake s := by simp [mstepOnce, hp, he]

theorem mstepOnce_of_speed {s : State} (hp : s.st.mpc = Mpc.SPEED) :
    mstepOnce s = service (.mstep 1) .mspd execMspd s := by simp [mstepOnce, hp]

theorem mstepOnce_of_ind {s : State} (hp : s.st.mpc = Mpc.IND) :
    mstepOnce s = service (.mstep 1) .mind execMind s := by simp [mstepOnce, hp]

theorem mstepOnce_of_reserved {s : State} (hp : s.st.mpc = 3#2) : mstepOnce s = .refused .sequencerReserved := by
  simp [mstepOnce, hp, Mpc.POLL, Mpc.SPEED, Mpc.IND]

/-! ## The main loop within clauses 1 to 6 -/

/-- A pending event is there to take: a ready sample has a value (clause 4). -/
theorem execMtake_of_inv6 {s : State} (h : s.Inv6) (he : s.st.eventPending = true) :
    ∃ t, execMtake s = .next t ∧ t.Inv6 := by
  obtain ⟨hv, hc⟩ := h
  cases hr : s.st.ready with
  | true =>
    have ⟨_, _, _, hSample, _⟩ := hc
    obtain ⟨w, hw, -⟩ := (Option.any_eq_true ..).mp (hSample hr)
    exact ⟨_, execMtake_of_sample hr hw, hv, hc.takeSample hr hw⟩
  | false =>
    have ht : s.st.tmo = true := by simpa [Cells.eventPending, hr] using he
    exact ⟨_, execMtake_of_timeout hr ht, hv, hc.takeTimeout⟩

/-- At SPEED there is an event in hand (clause 5), and its speed is in range (R141). -/
theorem execMspd_of_inv6 {s : State} (h : s.Inv6) (hp : s.st.mpc = Mpc.SPEED) :
    ∃ t, execMspd s = .next t ∧ t.Inv6 := by
  obtain ⟨hv, hc⟩ := h
  have ⟨_, _, _, _, ⟨hMev, _⟩, _⟩ := hc
  obtain ⟨e, he⟩ := Option.isSome_iff_exists.mp (hMev.mpr hp)
  exact ⟨_, execMspd_of_event he, hv, hc.publish (eventSpeed_natAbs_le hv e)⟩

/-- A served handler goes on as the handler does; the record is no cell. -/
theorem service_of_inv6 {stim act : Instr} {handler : State → Result} {s : State}
    (h : ∃ t, handler s = .next t ∧ t.Inv6) : ∃ t, service stim act handler s = .next t ∧ t.Inv6 := by
  obtain ⟨t, ht, hInv⟩ := h
  exact ⟨_, service_eq_next.mpr ⟨t, ht, rfl⟩, hInv⟩

theorem mstepOnce_of_inv6 {s : State} (h : s.Inv6) : ∃ t, mstepOnce s = .next t ∧ t.Inv6 := by
  have ⟨hv, hc⟩ := h
  have ⟨_, ⟨_, _, hMpc⟩, _⟩ := hc
  rcases hMpc with hp | hp | hp
  · cases he : s.st.eventPending with
    | true => exact mstepOnce_of_poll hp he ▸ service_of_inv6 (execMtake_of_inv6 h he)
    | false => exact ⟨_, mstepOnce_of_spin hp he, hv, hc⟩
  · exact mstepOnce_of_speed hp ▸ service_of_inv6 (execMspd_of_inv6 h hp)
  · exact mstepOnce_of_ind hp ▸ service_of_inv6 ⟨_, execMind_eq s, hv, hc.showDirection hp⟩

/-! ## Every stimulus -/

/-- A result within `P`: a next state that satisfies `P`, or a refusal. It is no fault. -/
def Within (P : State → Prop) (r : Result) : Prop := (∃ t, r = .next t ∧ P t) ∨ ∃ why, r = .refused why

theorem Within.next {P : State → Prop} {r : Result} {t : State} (h : Within P r) (hr : r = .next t) : P t := by
  subst hr
  obtain ⟨u, hu, hP⟩ | ⟨why, hu⟩ := h
  · cases hu; exact hP
  · cases hu

theorem Within.not_fault {P : State → Prop} {r : Result} (h : Within P r) (f : Fault) : r ≠ .fault f := by
  rintro rfl
  obtain ⟨u, hu, -⟩ | ⟨why, hu⟩ := h
  · cases hu
  · cases hu

theorem counted_within {f : State → Result} {P : State → Prop} (one : ∀ s, P s → ∃ t, f s = .next t ∧ P t)
    (n : Nat) {s : State} (hs : P s) : Within P (counted f n s) := by
  cases n with
  | zero => exact .inr ⟨_, counted_zero f s⟩
  | succ n => exact .inl (counted_completes one n.succ_pos hs)

theorem execRise_within_inv6 {s : State} (h : s.Inv6) : Within State.Inv6 (execRise s) := by
  obtain ⟨hv, hc⟩ := h
  unfold execRise
  split_ifs
  · exact .inr ⟨_, rfl⟩
  · exact .inl ⟨_, rfl, hv, Cells.INV6.captureRise (c := s.st.setLvl true) hv hc⟩
  · exact .inl ⟨_, rfl, hv, hc⟩

theorem execFall_within_inv6 {s : State} (h : s.Inv6) : Within State.Inv6 (execFall s) := by
  obtain ⟨hv, hc⟩ := h
  unfold execFall
  split_ifs with _ hp
  · exact .inr ⟨_, rfl⟩
  · exact .inl ⟨_, rfl, hv, Cells.INV6.captureFall (c := s.st.setLvl false) hv hc hp⟩
  · exact .inl ⟨_, rfl, hv, hc⟩

/-- A stimulus is refused or leaves clauses 1 to 6 as they were; it never faults. -/
theorem exec_within_inv6 {i : Instr} (hi : i.isStimulus = true) {s : State} (h : s.Inv6) :
    Within State.Inv6 (exec i s) := by
  cases i with
  | rise => exact execRise_within_inv6 h
  | fall => exact execFall_within_inv6 h
  | ctick n => exact counted_within (fun _ => ctickOnce_of_inv6) n h
  | stick n => exact counted_within (fun _ => stickOnce_of_inv6) n h
  | mstep n => exact counted_within (fun _ => mstepOnce_of_inv6) n h
  | reset => exact .inl ⟨_, rfl, h.1, Cells.resetKeepLvl_INV6 h.1⟩
  | _ => cases hi

/-! ## Every step of the machine -/

theorem plainOperand_eq_stim {i j : Instr} {n : Nat} (h : plainOperand i n = .stim j) : j = i := by
  unfold plainOperand at h
  split_ifs at h
  cases h; rfl

theorem countOperand_eq_stim {op : Nat → Instr} {n : Nat} {j : Instr} (h : countOperand op n = .stim j) : j = op n := by
  unfold countOperand at h
  split_ifs at h
  cases h; rfl

/-- A trace word stands for a stimulus (R84): a handler action has no word the decoder reads. -/
theorem decode_isStimulus {w : Word} {i : Instr} (h : decode w = .stim i) : i.isStimulus = true := by
  unfold decode at h
  split at h
  · rw [plainOperand_eq_stim h]; rfl
  · rw [plainOperand_eq_stim h]; rfl
  · rw [countOperand_eq_stim h]; rfl
  · rw [countOperand_eq_stim h]; rfl
  · rw [countOperand_eq_stim h]; rfl
  · rw [plainOperand_eq_stim h]; rfl
  · cases h
  · cases h
  · cases h

/-- A step refuses or runs a stimulus on the machine without its first word. -/
theorem step_refused_or_exec (s : State) :
    (∃ why, step s = .refused why) ∨
    ∃ i rest, i.isStimulus = true ∧ step s = exec i { s with trace := rest } := by
  unfold step
  cases hs : s.trace with
  | nil => exact .inl ⟨_, by rw [fetch_nil hs]⟩
  | cons w rest =>
    rw [fetch_cons hs]
    cases hw : decode w with
    | stim i => exact .inr ⟨i, rest, decode_isStimulus hw, by simp [hw]⟩
    | illegal why => exact .inl ⟨.illegal why, by simp [hw]⟩

theorem step_within_inv6 {s : State} (h : s.Inv6) : Within State.Inv6 (step s) := by
  obtain hRefused | ⟨i, rest, hi, hStep⟩ := step_refused_or_exec s
  · exact .inr hRefused
  · exact hStep ▸ exec_within_inv6 hi (s := { s with trace := rest }) h

/-- Settles O53: no step leaves clauses 1 to 6. -/
theorem stepKeepsFirstSixClauses : Obligations.StepKeepsFirstSixClauses :=
  fun _ _ h ht => (step_within_inv6 h).next ht

/-- Settles O45: the four stops by name, and no fault within clauses 1 to 6. -/
theorem mainLoopStops : Obligations.MainLoopStops :=
  ⟨fun _ => execMtake_of_no_sample, fun _ => execMtake_of_no_event, fun _ => execMspd_of_no_event,
    fun s hp => (counted_one mstepOnce s).trans (mstepOnce_of_reserved hp), fun _ f h => (step_within_inv6 h).not_fault f⟩

end Sys2Proof.Machine
end

section
/-! Proofs: the indicator follows the speed, and with clauses 1 to 6 the inductive invariant (spec/10_state.md R53,
spec/43_direction_indicator.md R197). -/

namespace Sys2Proof.Machine

/-- R197's induction hypothesis: clause 7 with what holds of a main loop between MSPD and MIND (log entry 12). -/
def Cells.IndicatorFollows (c : Cells) : Prop := c.IndicatorLegal ∧ c.IndicatorWaits

theorem State.reachInv_iff {s : State} : s.ReachInv ↔ s.Inv6 ∧ s.st.IndicatorFollows := by
  constructor
  · rintro ⟨⟨hv, hSpeeds, hCodes, hCounter, hSample, hEvent, hRecharge, hLegal⟩, hWaits⟩
    exact ⟨⟨hv, hSpeeds, hCodes, hCounter, hSample, hEvent, hRecharge⟩, hLegal, hWaits⟩
  · rintro ⟨⟨hv, hSpeeds, hCodes, hCounter, hSample, hEvent, hRecharge⟩, hLegal, hWaits⟩
    exact ⟨⟨hv, hSpeeds, hCodes, hCounter, hSample, hEvent, hRecharge, hLegal⟩, hWaits⟩

/-- The invariant reads the main loop's cells alone. -/
theorem Cells.IndicatorFollows.of_sameMainLoop {a b : Cells} (h : a.IndicatorFollows) (hab : sameMainLoop a b) :
    b.IndicatorFollows := by
  obtain ⟨hMs, hPrev, -, hMpc, hInd⟩ := hab
  simpa [Cells.IndicatorFollows, Cells.IndicatorLegal, Cells.IndicatorWaits, hMs, hPrev, hMpc, hInd] using h

theorem Cells.coreStart_indicatorFollows (level : Bool) : (Cells.coreStart level).IndicatorFollows :=
  ⟨fun _ => rfl, fun _ => rfl⟩

@[simp] theorem signCode_zero : signCode 0 = Ind.NEU := rfl

theorem signCode_of_neg {v : Int} (h : v < 0) : signCode v = Ind.BWD := by simp [signCode, h.ne, h.not_gt]

theorem signCode_of_pos {v : Int} (h : 0 < v) : signCode v = Ind.FWD := by simp [signCode, h.ne', h]

/-- From the code of the old speed, R191's function gives the code of the new one. -/
theorem indicate_signCode (prev new : Int) : indicate prev new (signCode prev) = signCode new := by
  rcases lt_trichotomy new 0 with hn | rfl | hn
  · have hNew : signCode new = Ind.BWD := signCode_of_neg hn
    by_cases hp : 0 ≤ prev
    · simp [indicate, hNew, hn, hn.le, hp]
    · simp [indicate, hNew, hn.le, hn.ne, hp, signCode_of_neg (not_le.mp hp)]
  · by_cases hp : prev = 0
    · simp [indicate, hp]
    · simp [indicate, hp]
  · have hNew : signCode new = Ind.FWD := signCode_of_pos hn
    by_cases hp : prev ≤ 0
    · simp [indicate, hNew, hn, hp]
    · simp [indicate, hNew, hn.le, hn.ne', hp, signCode_of_pos (not_le.mp hp)]

theorem mstepOnce_keeps_indicatorFollows {s t : State} (h : s.st.IndicatorFollows) (ht : mstepOnce s = .next t) :
    t.st.IndicatorFollows := by
  have ⟨hLegal, hWaits⟩ := h
  obtain ⟨-, -, rfl⟩ | ⟨hp, -, u, hu, rfl⟩ | ⟨hp, u, hu, rfl⟩ | ⟨hp, rfl⟩ := mstepOnce_cases ht
  · exact h
  · have hNow : s.st.ind = signCode s.st.ms.toInt := hLegal (hp ▸ Mpc.POLL_ne_IND)
    obtain ⟨w, -, -, rfl⟩ | ⟨-, -, rfl⟩ := execMtake_cases hu
    · exact ⟨fun _ => hNow, fun hi => absurd hi Mpc.SPEED_ne_IND⟩
    · exact ⟨fun _ => hNow, fun hi => absurd hi Mpc.SPEED_ne_IND⟩
  · have hNow : s.st.ind = signCode s.st.ms.toInt := hLegal (hp ▸ Mpc.SPEED_ne_IND)
    obtain ⟨e, -, rfl⟩ := execMspd_cases hu
    exact ⟨fun hi => absurd rfl hi, fun _ => hNow⟩
  · have hNew : s.st.showDirection.ind = signCode s.st.ms.toInt := by
      rw [Cells.showDirection_ind, hWaits hp, indicate_signCode]
    exact ⟨fun _ => hNew, fun hi => absurd hi Mpc.POLL_ne_IND⟩

theorem exec_keeps_indicatorFollows {i : Instr} (hi : i.isStimulus = true) {s t : State}
    (h : s.st.IndicatorFollows) (ht : exec i s = .next t) : t.st.IndicatorFollows := by
  obtain ⟨hOwned, -⟩ := exec_frame ht
  cases i with
  | rise => obtain ⟨-, hMain, -⟩ := hOwned; exact h.of_sameMainLoop hMain
  | fall => obtain ⟨-, hMain, -⟩ := hOwned; exact h.of_sameMainLoop hMain
  | ctick n => obtain ⟨-, hMain, -⟩ := hOwned; exact h.of_sameMainLoop hMain
  | stick n => obtain ⟨-, hMain, -⟩ := hOwned; exact h.of_sameMainLoop hMain
  | mstep n =>
    exact repeatStep_keeps (P := fun u => u.st.IndicatorFollows) (fun _ _ => mstepOnce_keeps_indicatorFollows) n s t h
      (counted_eq_next.mp ht).2
  | reset => cases ht; exact Cells.coreStart_indicatorFollows s.st.lvl
  | _ => cases hi

theorem step_keeps_indicatorFollows {s t : State} (h : s.st.IndicatorFollows) (ht : step s = .next t) :
    t.st.IndicatorFollows := by
  obtain ⟨w, rest, i, -, hw, hExec⟩ := step_eq_next ht
  exact exec_keeps_indicatorFollows (decode_isStimulus hw) (s := { s with trace := rest }) h hExec

/-- Settles O52: clauses 1 to 6 and the indicator are each kept. -/
theorem stepKeepsInvariant : Obligations.StepKeepsInvariant := by
  intro s t h ht
  obtain ⟨hInv6, hInd⟩ := State.reachInv_iff.mp h
  exact State.reachInv_iff.mpr ⟨stepKeepsFirstSixClauses s t hInv6 ht, step_keeps_indicatorFollows hInd ht⟩

end Sys2Proof.Machine
end

section
/-! Proofs: core start, launch and whole runs (spec/10_state.md R52, R53, R55). -/

namespace Sys2Proof.Machine

/-- Settles O17: the base case of the induction. -/
theorem coreStartMeetsInvariant : Obligations.CoreStartMeetsInvariant :=
  fun cfg _ hv => ⟨⟨hv, Cells.coreStart_INV hv cfg.CMD_LEVEL0⟩, (Cells.coreStart_indicatorFollows cfg.CMD_LEVEL0).2⟩

/-- Settles O18: the base case at the configuration State.reset carries. -/
theorem resetStateMeetsInvariant : Obligations.ResetStateMeetsInvariant :=
  ⟨rfl, coreStartMeetsInvariant Config.initial [] (by decide)⟩

/-- Settles O15: the values of R52's table. -/
theorem resetValues : Obligations.ResetValues := fun _ _ _ => ⟨rfl, _, rfl, rfl⟩

/-! ## Launch -/

/-- Under an accepted configuration a launch asks for INV alone: core start satisfies it (R55). -/
theorem launch_of_validConfig {cfg : Config} (hv : ValidConfig cfg) (c : Cells) (ws : List Word) :
    launch cfg c ws =
      if c.INV cfg then .next { cfg := cfg, st := c, trace := ws, log := [] } else .refused .badLaunchState := by
  have hStart : c = Cells.coreStart cfg.CMD_LEVEL0 ∨ c.INV cfg ↔ c.INV cfg :=
    or_iff_right_of_imp fun hc => hc ▸ Cells.coreStart_INV hv cfg.CMD_LEVEL0
  rw [launch, if_pos hv.1, if_pos hv.2]
  simp only [hStart]

/-- Everything `launch` can do when it answers a next state. -/
theorem launch_eq_next {cfg : Config} {c : Cells} {ws : List Word} {s : State} (h : launch cfg c ws = .next s) :
    s.Inv ∧ s = { cfg := cfg, st := c, trace := ws, log := [] } := by
  have hv : ValidConfig cfg := by
    unfold launch at h
    split_ifs at h with hR9 hFits
    exact ⟨hR9, hFits⟩
  rw [launch_of_validConfig hv] at h
  split_ifs at h with hc
  cases h
  exact ⟨⟨hv, hc⟩, rfl⟩

/-- Settles O13: a launch admits core start and INV, and nothing else. -/
theorem launchStates : Obligations.LaunchStates := by
  intro cfg c ws hv
  refine ⟨?_, fun hc => ?_, fun hc => ?_⟩
  · rw [launch_of_validConfig hv, if_pos (Cells.coreStart_INV hv cfg.CMD_LEVEL0)]
    rfl
  · rw [launch_of_validConfig hv, if_pos hc]
  · rw [launch_of_validConfig hv, if_neg hc]

/-! ## Runs -/

/-- What every step stays within, a run of any length stays within, and it never faults. -/
theorem runWords_within {P : State → Prop} (one : ∀ s, P s → Within P (step s)) (n : Nat) {s : State} (hs : P s) :
    P (runWords n s).1 ∧ ∀ f, (runWords n s).2 ≠ .faulted f := by
  induction n generalizing s with
  | zero => exact ⟨hs, nofun⟩
  | succ n ih =>
    unfold runWords
    obtain ⟨t, ht, hP⟩ | ⟨why, ht⟩ := one s hs
    · rw [ht]; exact ih hP
    · rw [ht]; exact ⟨hs, nofun⟩

theorem step_within_reachInv {s : State} (h : s.ReachInv) : Within State.ReachInv (step s) := by
  obtain ⟨t, ht, -⟩ | hRefused := step_within_inv6 (State.reachInv_iff.mp h).1
  · exact .inl ⟨t, ht, stepKeepsInvariant s t h ht⟩
  · exact .inr hRefused

/-- Settles O54: core start meets the inductive invariant, every step stays within it, and INV is part of it. -/
theorem runsFromCoreStartSatisfyInv : Obligations.RunsFromCoreStartSatisfyInv := by
  intro cfg ws n hv
  obtain ⟨⟨hInv, -⟩, hFault⟩ := runWords_within (fun _ => step_within_reachInv) n (coreStartMeetsInvariant cfg ws hv)
  exact ⟨hInv, hFault⟩

/-- Settles O55: a launched state satisfies INV, and every step stays within its clauses 1 to 6. -/
theorem runsFromLaunchNeverFault : Obligations.RunsFromLaunchNeverFault := by
  intro cfg c ws s n h
  obtain ⟨⟨hv, hc⟩, -⟩ := launch_eq_next h
  exact runWords_within (fun _ => step_within_inv6) n ⟨hv, hc.inv6⟩

/-! ## INV alone is not inductive -/

/-- A main loop at IND with both speeds 0 and the indicator at forward: INV's clause 7 says nothing of it. The next word is
one MSTEP, which runs MIND. -/
def forwardAtInd : State :=
  { State.coreStart (Config.source 109 false) [0x5001#16] with
    st := { Cells.coreStart false with mpc := Mpc.IND, ind := Ind.FWD } }

/-- The step of `forwardAtInd`: speed 0 after speed 0 leaves the indicator (R193), now at POLL. -/
def forwardAtPoll : State :=
  { State.coreStart (Config.source 109 false) [] with
    st := { Cells.coreStart false with ind := Ind.FWD }
    log := [⟨0x5001#16, some 0xF000#16, Hb.RCH, Ind.FWD⟩] }

theorem step_forwardAtInd : step forwardAtInd = .next forwardAtPoll := rfl

/-- Refutes O56: the MIND of `forwardAtInd` leaves the indicator at forward with speed 0 (log entry 12). -/
theorem not_invAloneIsInductive : ¬ Obligations.InvAloneIsInductive := by
  intro h
  exact absurd (h forwardAtInd forwardAtPoll (by decide) step_forwardAtInd) (by decide)

end Sys2Proof.Machine
end

section
/-! Proofs: the bridge's states and its patterns (spec/10_state.md R37, R40 to R42). -/

namespace Sys2Proof.Machine

/-- Settles O38: the branches of `hstate`. -/
theorem bridgeStates : Obligations.BridgeStates := by
  intro c
  refine ⟨fun h => ?_, fun h => ?_, fun hf hb ht => ?_, fun hf hb ht => ?_⟩
  · exact if_pos h
  · simp [hstate, h]
  · simp [hstate, hf, hb, ht]
  · simp [hstate, hf, hb, ht]

/-- Settles O39: the sixteen patterns. -/
theorem patternSwitches : Obligations.PatternSwitches := by
  refine ⟨by decide, by decide, by decide, ?_⟩
  decide

end Sys2Proof.Machine
end

section
/-! Proofs: decoding and encoding agree (spec/30_encoding.md R81 to R88). -/

namespace Sys2Proof.Machine

/-! ## Words and their fields -/

theorem wordOf_eq_of_fields {w : Word} {op n : Nat} (hop : opField w = op) (hn : nField w = n) : wordOf op n = w := by
  rw [← hop, ← hn, wordOf_fields]

theorem wordOf_of_lt {op n : Nat} (hn : n < 4096) : wordOf op n = BitVec.ofNat 16 (op * 4096 + n) := by
  rw [wordOf, Nat.mod_eq_of_lt hn]

theorem countFits_iff {n : Nat} : countFits n = true ↔ 1 ≤ n ∧ n ≤ 4095 := by simp [countFits]

theorem countFits_nField {w : Word} : countFits (nField w) = true ↔ 1 ≤ nField w := by
  have := nField_lt w
  rw [countFits_iff]
  omega

theorem nField_wordOf_of_fits {op n : Nat} (hop : op < 16) (hn : countFits n = true) : nField (wordOf op n) = n := by
  rw [nField_wordOf hop, Nat.mod_eq_of_lt (by have := countFits_iff.mp hn; omega)]

/-- Every operation's word carries its code, and the code shows the class. -/
theorem codeNibble (i : Instr) : Laws.CodeNibble.Statement i := by
  cases i with
  | rise => exact Laws.CodeNibble.rise
  | fall => exact Laws.CodeNibble.fall
  | ctick n => exact Laws.CodeNibble.ctick n
  | stick n => exact Laws.CodeNibble.stick n
  | mstep n => exact Laws.CodeNibble.mstep n
  | reset => exact Laws.CodeNibble.reset
  | capr => exact Laws.CodeNibble.capr
  | capf => exact Laws.CodeNibble.capf
  | tmo => exact Laws.CodeNibble.tmo
  | cmpa => exact Laws.CodeNibble.cmpa
  | cmpb => exact Laws.CodeNibble.cmpb
  | mtake => exact Laws.CodeNibble.mtake
  | mspd => exact Laws.CodeNibble.mspd
  | mind => exact Laws.CodeNibble.mind

theorem opField_encode_of_stimulus {i : Instr} (h : i.isStimulus = true) : opField (encode i) < 0x7 := by
  obtain ⟨hop, hClass⟩ := codeNibble i
  rw [if_pos h] at hClass
  exact hop ▸ hClass

theorem opField_encode_of_action {i : Instr} (h : i.isStimulus = false) : 0x8 ≤ opField (encode i) := by
  obtain ⟨hop, hClass⟩ := codeNibble i
  rw [if_neg (by simp [h])] at hClass
  exact hop ▸ hClass

/-! ## The rows of R87's case table -/

section
variable {w : Word}

theorem decode_op_rise (h : opField w = 0x1) : decode w = plainOperand .rise (nField w) := by simp [decode, h]
theorem decode_op_fall (h : opField w = 0x2) : decode w = plainOperand .fall (nField w) := by simp [decode, h]
theorem decode_op_ctick (h : opField w = 0x3) : decode w = countOperand .ctick (nField w) := by simp [decode, h]
theorem decode_op_stick (h : opField w = 0x4) : decode w = countOperand .stick (nField w) := by simp [decode, h]
theorem decode_op_mstep (h : opField w = 0x5) : decode w = countOperand .mstep (nField w) := by simp [decode, h]
theorem decode_op_reset (h : opField w = 0x6) : decode w = plainOperand .reset (nField w) := by simp [decode, h]
theorem decode_op_zero (h : opField w = 0x0) : decode w = .illegal .illegalOpcode := by simp [decode, h]
theorem decode_op_reserved (h : opField w = 0x7) : decode w = .illegal .reservedOpcode := by simp [decode, h]
theorem decode_op_history (h : 0x8 ≤ opField w) : decode w = .illegal .historyOnlyCode := by
  have hlt := opField_lt w
  interval_cases hop : opField w <;> simp [decode, hop]

end

/-! ## What the readers read has exactly the word read -/

theorem plainOperand_eq_stim_iff {i j : Instr} {n : Nat} : plainOperand i n = .stim j ↔ n = 0 ∧ i = j := by
  unfold plainOperand
  split_ifs with h <;> simp [h]

theorem countOperand_eq_stim_iff {op : Nat → Instr} {n : Nat} {j : Instr} :
    countOperand op n = .stim j ↔ 1 ≤ n ∧ op n = j := by
  unfold countOperand
  split_ifs with h <;> simp [h]

theorem decode_eq_stim {w : Word} {i : Instr} (h : decode w = .stim i) : i.wellFormed = true ∧ encode i = w := by
  unfold decode at h
  split at h
  case h_1 hop | h_2 hop | h_6 hop =>
    obtain ⟨hn, rfl⟩ := plainOperand_eq_stim_iff.mp h
    exact ⟨rfl, wordOf_eq_of_fields hop hn⟩
  case h_3 hop | h_4 hop | h_5 hop =>
    obtain ⟨hn, rfl⟩ := countOperand_eq_stim_iff.mp h
    exact ⟨countFits_nField.mpr hn, wordOf_eq_of_fields hop rfl⟩
  all_goals cases h

theorem decodeAction_eq_some {w : Word} {i : Instr} (h : decodeAction w = some i) :
    i.isStimulus = false ∧ encode i = w := by
  unfold decodeAction at h
  split_ifs at h with hn
  split at h <;> cases h
  all_goals exact ⟨rfl, wordOf_eq_of_fields ‹_› hn⟩

/-- A stimulus code lies below 0x7 and a handler code from 0x8, so no word is read by both. -/
theorem decodeAction_eq_none {w : Word} {i : Instr} (h : decode w = .stim i) : decodeAction w = none := by
  refine Option.eq_none_iff_forall_ne_some.mpr fun j hj => ?_
  obtain ⟨hClass, hWord⟩ := decodeAction_eq_some hj
  have hAction := opField_encode_of_action hClass
  have hStimulus := opField_encode_of_stimulus (decode_isStimulus h)
  rw [(decode_eq_stim h).2, ← hWord] at hStimulus
  omega

/-! ## The readers on the word of an operation -/

theorem countOperand_of_fits {op : Nat → Instr} {c n : Nat} (hc : c < 16) (hn : countFits n = true) :
    countOperand op (nField (wordOf c n)) = .stim (op n) := by
  rw [nField_wordOf_of_fits hc hn, countOperand_eq_stim_iff]
  exact ⟨(countFits_iff.mp hn).1, rfl⟩

theorem decode_encode {i : Instr} (hs : i.isStimulus = true) (hw : i.wellFormed = true) :
    decode (encode i) = .stim i := by
  cases i with
  | rise | fall | reset => rfl
  | ctick n => exact (decode_op_ctick (opField_wordOf (by decide))).trans (countOperand_of_fits (by decide) hw)
  | stick n => exact (decode_op_stick (opField_wordOf (by decide))).trans (countOperand_of_fits (by decide) hw)
  | mstep n => exact (decode_op_mstep (opField_wordOf (by decide))).trans (countOperand_of_fits (by decide) hw)
  | _ => cases hs

theorem decode_encode_action {i : Instr} (hs : i.isStimulus = false) :
    decode (encode i) = .illegal .historyOnlyCode := decode_op_history (opField_encode_of_action hs)

theorem decodeAction_encode {i : Instr} (hs : i.isStimulus = false) : decodeAction (encode i) = some i := by
  cases i with
  | rise | fall | ctick | stick | mstep | reset => cases hs
  | _ => rfl

/-- A word decodes to an operation exactly when it is the word of that well-formed stimulus. -/
theorem decode_eq_stim_iff {w : Word} {i : Instr} :
    decode w = .stim i ↔ i.isStimulus = true ∧ i.wellFormed = true ∧ w = encode i := by
  constructor
  · intro h
    obtain ⟨hw, hWord⟩ := decode_eq_stim h
    exact ⟨decode_isStimulus h, hw, hWord.symm⟩
  · rintro ⟨hs, hw, rfl⟩
    exact decode_encode hs hw

theorem decodeTableWord_of_stim {w : Word} {i : Instr} (h : decode w = .stim i) :
    decodeTableWord 16 w.toNat = some i := by simp [decodeTableWord, w.isLt, h]

theorem decodeTableWord_of_historyOnly {w : Word} (h : decode w = .illegal .historyOnlyCode) :
    decodeTableWord 16 w.toNat = decodeAction w := by simp [decodeTableWord, w.isLt, h]

theorem decodeTableWord_encode {i : Instr} (hw : i.wellFormed = true) :
    decodeTableWord 16 (encode i).toNat = some i := by
  cases hs : i.isStimulus with
  | true => exact decodeTableWord_of_stim (decode_encode hs hw)
  | false => exact (decodeTableWord_of_historyOnly (decode_encode_action hs)).trans (decodeAction_encode hs)

/-- Settles O3: the two readers on each class of words, and the table reader through them. -/
theorem decodeOfEncode : Obligations.DecodeOfEncode := by
  intro i hw
  refine ⟨fun hs => ?_, fun hs => ⟨decode_encode_action hs, decodeAction_encode hs⟩, decodeTableWord_encode hw⟩
  exact ⟨decode_encode hs hw, decodeAction_eq_none (decode_encode hs hw)⟩

/-- The table reader recovers an operation from its word, so no two share one. -/
theorem encode_injective {i j : Instr} (hi : i.wellFormed = true) (hj : j.wellFormed = true)
    (h : encode i = encode j) : i = j := by
  refine Option.some.inj ?_
  rw [← decodeTableWord_encode hi, h, decodeTableWord_encode hj]

/-- Settles O4: the inversions of the two readers. -/
theorem encodeOfDecode : Obligations.EncodeOfDecode := by
  refine ⟨fun w i h => ?_, fun _ _ => decodeAction_eq_some, fun _ _ => encode_injective,
    fun _ _ => decodeAction_eq_none⟩
  obtain ⟨hw, hWord⟩ := decode_eq_stim h
  exact ⟨hw, decode_isStimulus h, hWord⟩

/-! ## Matches and masks -/

theorem toNat_and_operandMask (w : Word) : (w &&& 0x0FFF#16).toNat = nField w := by
  rw [nField_eq, BitVec.toNat_and]
  exact Nat.and_two_pow_sub_one_eq_mod w.toNat 12

theorem and_operandMask_eq_zero_iff {w : Word} : w &&& 0x0FFF#16 = 0#16 ↔ nField w = 0 := by
  rw [← toNat_and_operandMask, ← BitVec.toNat_inj, BitVec.toNat_ofNat, Nat.zero_mod]

theorem and_codeMask (w : Word) : w &&& 0xF000#16 = wordOf (opField w) 0 := by
  have hShift : w &&& 0xF000#16 = w >>> 12 <<< 12 := by rw [BitVec.shiftLeft_ushiftRight]; rfl
  have hlt := w.isLt
  refine BitVec.eq_of_toNat_eq ?_
  rw [hShift, wordOf_toNat (opField_lt w), opField_eq, BitVec.toNat_shiftLeft, BitVec.toNat_ushiftRight,
    Nat.shiftRight_eq_div_pow, Nat.shiftLeft_eq]
  omega

theorem and_codeMask_eq_iff {w : Word} {c : Nat} (hc : c < 16) : w &&& 0xF000#16 = wordOf c 0 ↔ opField w = c := by
  rw [and_codeMask]
  constructor
  · intro h
    rw [← opField_wordOf (n := 0) (opField_lt w), h, opField_wordOf hc]
  · rintro rfl
    rfl

/-- The match and mask of an operation without operand: the whole word. -/
theorem decode_plain_iff {w : Word} {i : Instr} (hs : i.isStimulus = true) (hw : i.wellFormed = true) :
    decode w = .stim i ↔ w &&& 0xFFFF#16 = encode i := by
  have hMask : w &&& 0xFFFF#16 = w := BitVec.and_allOnes
  rw [hMask, decode_eq_stim_iff, and_iff_right hs, and_iff_right hw]

/-- The match and mask of a count operation: its code and an operand other than 0. -/
theorem decode_count_iff {w : Word} {op : Nat → Instr} {c : Nat} (hc : c < 16)
    (hRow : opField w = c → decode w = countOperand op (nField w)) (hCode : ∀ n, opField (encode (op n)) = c) :
    (∃ n, decode w = .stim (op n)) ↔ w &&& 0xF000#16 = wordOf c 0 ∧ w &&& 0x0FFF#16 ≠ 0#16 := by
  rw [and_codeMask_eq_iff hc, Ne, and_operandMask_eq_zero_iff]
  constructor
  · rintro ⟨n, h⟩
    have hop : opField w = c := (decode_eq_stim h).2 ▸ hCode n
    have hPos := (countOperand_eq_stim_iff.mp ((hRow hop).symm.trans h)).1
    exact ⟨hop, Nat.one_le_iff_ne_zero.mp hPos⟩
  · rintro ⟨hop, hn⟩
    exact ⟨nField w, (hRow hop).trans (countOperand_eq_stim_iff.mpr ⟨Nat.one_le_iff_ne_zero.mpr hn, rfl⟩)⟩

/-- Settles O2: the rows of the decoder on the two fields as numbers, and the masks as the fields. -/
theorem decodeCaseTable : Obligations.DecodeCaseTable := by
  intro w
  rw [← opField_eq, ← nField_eq]
  exact ⟨decode_op_rise, decode_op_fall, decode_op_ctick, decode_op_stick, decode_op_mstep, decode_op_reset,
    decode_op_zero, decode_op_reserved, decode_op_history,
    decode_plain_iff rfl rfl, decode_plain_iff rfl rfl, decode_plain_iff rfl rfl,
    decode_count_iff (by decide) decode_op_ctick fun _ => opField_wordOf (by decide),
    decode_count_iff (by decide) decode_op_stick fun _ => opField_wordOf (by decide),
    decode_count_iff (by decide) decode_op_mstep fun _ => opField_wordOf (by decide)⟩

/-- Settles O1: the fourteen codings and the split of 20000 by evaluation. -/
theorem workedEncodings : Obligations.WorkedEncodings :=
  ⟨by decide, by decide, by decide, by decide, by decide, by decide, by decide, fun _ => rfl⟩

end Sys2Proof.Machine
end

section
/-! Proofs: one word's step and the refusals of a trace (spec/30_encoding.md R92, R94 to R96). -/

namespace Sys2Proof.Machine

/-! ## The equations of `step`, one for each head of the trace -/

theorem step_of_nil {s : State} (h : s.trace = []) : step s = .refused .endOfTrace := by
  simp [step, fetch_nil h]

theorem step_of_stim {s : State} {w : Word} {rest : List Word} {i : Instr} (h : s.trace = w :: rest)
    (hw : decode w = .stim i) : step s = exec i { s with trace := rest } := by
  simp [step, fetch_cons h, hw]

theorem step_of_illegal {s : State} {w : Word} {rest : List Word} {why : Illegal} (h : s.trace = w :: rest)
    (hw : decode w = .illegal why) : step s = .refused (.illegal why) := by
  simp [step, fetch_cons h, hw]

/-- Settles O7: the equation of `step` at a word that decodes. -/
theorem stepRunsDecodedInstruction : Obligations.StepRunsDecodedInstruction := fun _ _ _ _ => step_of_stim

/-- Settles O8: the placed word is the head of the trace, and it decodes to its operation. -/
theorem fetchWordIsRunNext : Obligations.FetchWordIsRunNext := by
  intro s i hw hs
  have hTrace : (s.withFetchWord 16 (encode i).toNat).trace = encode i :: s.trace := by simp
  exact step_of_stim hTrace (decode_encode hs hw)

theorem runWords_of_refused {s : State} {why : Refusal} (h : step s = .refused why) (n : Nat) :
    runWords (n + 1) s = (s, .refusedAt why) := by simp [runWords, h]

/-- Settles O10: the step's equation at an empty trace, and a run of no words. -/
theorem noStepWithoutStimulus : Obligations.NoStepWithoutStimulus :=
  fun _ h => ⟨step_of_nil h, by simp [run, h, runWords]⟩

/-- Settles O12: each count operation is `counted`, which refuses the count 0. -/
theorem zeroCountRefused : Obligations.ZeroCountRefused :=
  fun s => ⟨counted_zero ctickOnce s, counted_zero stickOnce s, counted_zero mstepOnce s⟩

/-! ## Which stimuli are enabled -/

theorem execRise_of_high {s : State} (h : s.st.lvl = true) : execRise s = .refused .levelAlreadyHigh := if_pos h

theorem execFall_of_low {s : State} (h : s.st.lvl = false) : execFall s = .refused .levelAlreadyLow := if_pos h

theorem execRise_enabled {s : State} (h : s.st.lvl = false) : ∃ t, execRise s = .next t := by
  unfold execRise
  rw [if_neg (by simp [h])]
  split_ifs
  · exact ⟨_, rfl⟩
  · exact ⟨_, rfl⟩

theorem execFall_enabled {s : State} (h : s.st.lvl = true) : ∃ t, execFall s = .next t := by
  unfold execFall
  rw [if_neg (by simp [h])]
  split_ifs
  · exact ⟨_, rfl⟩
  · exact ⟨_, rfl⟩

theorem counted_enabled {f : State → Result} (one : ∀ s, s.Inv6 → ∃ t, f s = .next t ∧ t.Inv6) {n : Nat}
    (hn : countFits n = true) {s : State} (h : s.Inv6) : ∃ t, counted f n s = .next t := by
  obtain ⟨t, ht, -⟩ := counted_completes one (countFits_iff.mp hn).1 h
  exact ⟨t, ht⟩

/-- Within clauses 1 to 6 of INV a stimulus with a word has a next state, an edge to the level the line has apart. -/
theorem exec_enabled {i : Instr} (hs : i.isStimulus = true) (hw : i.wellFormed = true) {s : State} (h : s.Inv6)
    (hRise : ¬(i = .rise ∧ s.st.lvl = true)) (hFall : ¬(i = .fall ∧ s.st.lvl = false)) :
    ∃ t, exec i s = .next t := by
  cases i with
  | rise => exact execRise_enabled (by simpa using hRise)
  | fall => exact execFall_enabled (by simpa using hFall)
  | ctick n => exact counted_enabled (fun _ => ctickOnce_of_inv6) hw h
  | stick n => exact counted_enabled (fun _ => stickOnce_of_inv6) hw h
  | mstep n => exact counted_enabled (fun _ => mstepOnce_of_inv6) hw h
  | reset => exact ⟨_, rfl⟩
  | _ => cases hs

/-- Settles O9: the two refusals of R92, every other stimulus enabled, and the end of the run at a refusal. -/
theorem traceRefusals : Obligations.TraceRefusals := by
  intro s w rest hTrace
  refine ⟨fun _ => step_of_illegal hTrace, fun hw hl => ?_, fun hw hl => ?_, fun i hw hInv hRise hFall => ?_,
    fun _ n h => runWords_of_refused h n⟩
  · exact (step_of_stim hTrace hw).trans (execRise_of_high hl)
  · exact (step_of_stim hTrace hw).trans (execFall_of_low hl)
  · rw [step_of_stim hTrace hw]
    exact exec_enabled (decode_isStimulus hw) (decode_eq_stim hw).1 hInv hRise hFall

end Sys2Proof.Machine
end

section
/-! Proofs: counts, the assembler's splitting and the pseudo-operations (spec/30_encoding.md R86, R91, R93). -/

namespace Sys2Proof.Machine

/-! ## Operations one after another -/

@[simp] theorem execAll_nil (s : State) : execAll [] s = .next s := rfl

@[simp] theorem execAll_cons (i : Instr) (is : List Instr) (s : State) :
    execAll (i :: is) s = andThen (exec i s) (execAll is) := rfl

theorem execAll_singleton (i : Instr) (s : State) : execAll [i] s = exec i s := andThen_next_right (exec i s)

theorem execAll_append (is js : List Instr) (s : State) :
    execAll (is ++ js) s = andThen (execAll is s) (execAll js) := by
  induction is generalizing s with
  | nil => rfl
  | cons i is ih =>
    rw [List.cons_append, execAll_cons, execAll_cons, andThen_assoc]
    exact congrArg _ (funext ih)

theorem execAll_cons_congr {is js : List Instr} (h : ∀ t, execAll is t = execAll js t) (i : Instr) (s : State) :
    execAll (i :: is) s = execAll (i :: js) s := congrArg (andThen (exec i s)) (funext h)

/-! ## The three count operations -/

/-- A count operation (R83): its operand is a count, and it repeats one single step. -/
def IsCountOp (op : Nat → Instr) : Prop :=
  (∀ n, (op n).wellFormed = countFits n) ∧ ∃ single, ∀ n s, exec (op n) s = counted single n s

theorem isCountOp_ctick : IsCountOp .ctick := ⟨fun _ => rfl, ctickOnce, fun _ _ => rfl⟩

theorem isCountOp_stick : IsCountOp .stick := ⟨fun _ => rfl, stickOnce, fun _ _ => rfl⟩

theorem isCountOp_mstep : IsCountOp .mstep := ⟨fun _ => rfl, mstepOnce, fun _ _ => rfl⟩

theorem isCountOp_of_mem {op : Nat → Instr} (h : op ∈ [Instr.ctick, Instr.stick, Instr.mstep]) : IsCountOp op := by
  simp only [List.mem_cons, List.not_mem_nil, or_false] at h
  obtain rfl | rfl | rfl := h
  · exact isCountOp_ctick
  · exact isCountOp_stick
  · exact isCountOp_mstep

/-- `k` operations of count `m` are `k * m` single steps. -/
theorem execAll_replicate {op : Nat → Instr} {single : State → Result}
    (hExec : ∀ n s, exec (op n) s = counted single n s) {m : Nat} (hm : 1 ≤ m) (k : Nat) (s : State) :
    execAll (List.replicate k (op m)) s = repeatStep single (k * m) s := by
  induction k generalizing s with
  | zero => rw [Nat.zero_mul]; rfl
  | succ k ih =>
    rw [List.replicate_succ, execAll_cons, hExec, counted_pos single hm, Nat.succ_mul, Nat.add_comm, repeatStep_add]
    exact congrArg _ (funext ih)

/-- A count is that many operations of count 1 (R86). -/
theorem exec_eq_execAll_replicate {op : Nat → Instr} (hop : IsCountOp op) {n : Nat} (hn : 1 ≤ n) (s : State) :
    exec (op n) s = execAll (List.replicate n (op 1)) s := by
  obtain ⟨-, single, hExec⟩ := hop
  rw [execAll_replicate hExec le_rfl, Nat.mul_one, hExec, counted_pos single hn]

/-- Settles O11: a count repeats its operation's single step. -/
theorem countWordsRepeat : Obligations.CountWordsRepeat :=
  fun _ hop _ hn _ => exec_eq_execAll_replicate (isCountOp_of_mem hop) hn

/-! ## The splitting of a count line -/

theorem wellFormed_of_mem_splitCount {op : Nat → Instr} (hop : IsCountOp op) {n : Nat} {i : Instr}
    (hi : i ∈ splitCount op n) : i.wellFormed = true := by
  obtain ⟨hFits, -⟩ := hop
  rcases List.mem_append.mp hi with hi | hi
  · rw [List.eq_of_mem_replicate hi, hFits]
    decide
  · split_ifs at hi with hr
    · cases hi
    · rw [List.mem_singleton.mp hi, hFits, countFits_iff]
      omega

theorem splitCount_length (op : Nat → Instr) (n : Nat) :
    (splitCount op n).length = n / 4095 + (if n % 4095 = 0 then 0 else 1) := by
  unfold splitCount
  split_ifs <;> simp

/-- The words of a split count take `4095 * (n / 4095) + n % 4095` single steps. -/
theorem execAll_splitCount {op : Nat → Instr} (hop : IsCountOp op) {n : Nat} (hn : 1 ≤ n) (s : State) :
    execAll (splitCount op n) s = exec (op n) s := by
  obtain ⟨-, single, hExec⟩ := hop
  have hRest : ∀ t, execAll (if n % 4095 = 0 then [] else [op (n % 4095)]) t = repeatStep single (n % 4095) t := by
    intro t
    split_ifs with hr
    · rw [hr]; rfl
    · rw [execAll_singleton, hExec, counted_pos single (Nat.one_le_iff_ne_zero.mpr hr)]
  calc execAll (splitCount op n) s
      = andThen (repeatStep single (n / 4095 * 4095) s) (repeatStep single (n % 4095)) := by
        rw [splitCount, execAll_append, execAll_replicate hExec (by decide), funext hRest]
    _ = repeatStep single n s := by rw [← repeatStep_add, Nat.div_add_mod']
    _ = exec (op n) s := by rw [hExec, counted_pos single hn]

/-- The words of a count line, for an operation with code `c`. -/
theorem map_encode_countLine {op : Nat → Instr} {c : Nat} (hEncode : ∀ k, encode (op k) = wordOf c k) {n : Nat}
    (hn : 1 ≤ n) :
    (countLine op n).map (List.map encode) = some (List.replicate (n / 4095) (wordOf c 4095) ++
      if n % 4095 = 0 then [] else [BitVec.ofNat 16 (c * 4096 + n % 4095)]) := by
  have hLast : wordOf c (n % 4095) = BitVec.ofNat 16 (c * 4096 + n % 4095) := wordOf_of_lt (by omega)
  rw [countLine, if_pos hn, splitCount, Option.map_some, List.map_append, List.map_replicate, hEncode,
    apply_ite (List.map encode), List.map_nil, List.map_singleton, hEncode, hLast]

/-- Settles O5: the words of a count line, and the single steps they take. -/
theorem assemblerSplitsCounts : Obligations.AssemblerSplitsCounts := by
  intro n hn
  refine ⟨fun cfg => ⟨?_, ?_, ?_⟩, fun op hop => ?_⟩
  · exact map_encode_countLine (op := .ctick) (c := 0x3) (fun _ => rfl) hn
  · exact map_encode_countLine (op := .stick) (c := 0x4) (fun _ => rfl) hn
  · exact map_encode_countLine (op := .mstep) (c := 0x5) (fun _ => rfl) hn
  · have hCount := isCountOp_of_mem hop
    refine ⟨fun _ => wellFormed_of_mem_splitCount hCount, splitCount_length op n, fun s => ?_⟩
    have hSplit := execAll_splitCount hCount hn s
    exact ⟨hSplit.trans (exec_eq_execAll_replicate hCount hn s), hSplit⟩

/-! ## Pseudo-operations -/

theorem countLine_of_pos {op : Nat → Instr} {n : Nat} (hn : 1 ≤ n) : countLine op n = some (splitCount op n) :=
  if_pos hn

/-- A split count inside a longer list does what its whole count does. -/
theorem execAll_splitCount_append {op : Nat → Instr} (hop : IsCountOp op) {n : Nat} (hn : 1 ≤ n) (is : List Instr)
    (s : State) : execAll (splitCount op n ++ is) s = execAll (op n :: is) s := by
  rw [execAll_append, execAll_splitCount hop hn, execAll_cons]

/-- Settles O6: a pseudo-operation is a list of split counts and edges, and a split count does what its count does. -/
theorem pseudoOperations : Obligations.PseudoOperations := by
  intro cfg w p n hw hp hn s
  have hLow : AsmLine.operations cfg (.low n) = some (splitCount .ctick n) := countLine_of_pos hn
  have hPulse : AsmLine.operations cfg (.pulse w) = some (.rise :: (splitCount .ctick w ++ [.fall])) := by
    rw [AsmLine.operations, countLine_of_pos hw]; rfl
  have hFrame : AsmLine.operations cfg (.frame w p) =
      some (.rise :: (splitCount .ctick w ++ .fall :: splitCount .ctick (p - w))) := if_pos ⟨hw, hp⟩
  refine ⟨_, _, _, _, _, _, hPulse, ?_, hLow, execAll_splitCount isCountOp_ctick hn s, hFrame, ?_,
    hLow, execAll_splitCount isCountOp_ctick hn s,
    countLine_of_pos (Nat.le_add_left 1 _), execAll_splitCount isCountOp_stick (Nat.le_add_left 1 _) s,
    countLine_of_pos (by decide), execAll_splitCount isCountOp_mstep (by decide) s⟩
  · exact execAll_cons_congr (execAll_splitCount_append isCountOp_ctick hw [.fall]) .rise s
  · have hGap : ∀ t, execAll (splitCount .ctick (p - w)) t = execAll [.ctick (p - w)] t := fun t =>
      (execAll_splitCount isCountOp_ctick (by omega) t).trans (execAll_singleton _ t).symm
    refine execAll_cons_congr (fun t => (execAll_splitCount_append isCountOp_ctick hw _ t).trans ?_) .rise s
    exact execAll_cons_congr (execAll_cons_congr hGap .fall) (.ctick w) t

end Sys2Proof.Machine
end

section
/-! Proofs: the records of a run are only appended to (spec/30_encoding.md R89, R97). -/

namespace Sys2Proof.Machine

/-- `t` has the records of `s` and those written since (the list holds the newest first, log entry 6). -/
def LogGrows (s t : State) : Prop := s.log <:+ t.log

theorem LogGrows.refl (s : State) : LogGrows s s := List.suffix_rfl

/-- The end of an atomic step adds one record to those of a state with the same records. -/
theorem logGrows_commit {s u : State} (h : u.log = s.log) {i : Instr} {a : Option Instr} :
    LogGrows s (commit i a u) := by
  rw [LogGrows, commit_log, h]
  exact List.suffix_cons _ _

theorem execMtake_log {s t : State} (h : execMtake s = .next t) : t.log = s.log := by
  obtain ⟨w, -, -, rfl⟩ | ⟨-, -, rfl⟩ := execMtake_cases h
  · rfl
  · rfl

theorem execMspd_log {s t : State} (h : execMspd s = .next t) : t.log = s.log := by
  obtain ⟨e, -, rfl⟩ := execMspd_cases h
  rfl

theorem execRise_logGrows {s t : State} (h : execRise s = .next t) : LogGrows s t := by
  obtain ⟨-, ⟨-, rfl⟩ | ⟨-, rfl⟩⟩ := execRise_cases h
  · exact logGrows_commit (State.withSt_log _ _)
  · exact logGrows_commit (State.withSt_log _ _)

theorem execFall_logGrows {s t : State} (h : execFall s = .next t) : LogGrows s t := by
  obtain ⟨-, ⟨-, rfl⟩ | ⟨-, rfl⟩⟩ := execFall_cases h
  · exact logGrows_commit (State.withSt_log _ _)
  · exact logGrows_commit (State.withSt_log _ _)

theorem ctickOnce_logGrows {s t : State} (h : ctickOnce s = .next t) : LogGrows s t := by
  rcases ctickOnce_cases s with ⟨-, -, hc⟩ | ⟨-, -, hc⟩ | ⟨-, hc⟩ <;> cases hc.symm.trans h
  · exact logGrows_commit (State.withSt_log _ _)
  · exact logGrows_commit (State.withSt_log _ _)
  · exact logGrows_commit rfl

theorem stickOnce_logGrows {s t : State} (h : stickOnce s = .next t) : LogGrows s t := by
  rcases stickOnce_cases s with ⟨-, hc⟩ | ⟨-, -, hc⟩ | ⟨-, -, hc⟩ <;> cases hc.symm.trans h
  · exact logGrows_commit (State.withSt_log _ _)
  · exact logGrows_commit (State.withSt_log _ _)
  · exact logGrows_commit (State.withSt_log _ _)

theorem mstepOnce_logGrows {s t : State} (h : mstepOnce s = .next t) : LogGrows s t := by
  obtain ⟨-, -, rfl⟩ | ⟨-, -, u, hu, rfl⟩ | ⟨-, u, hu, rfl⟩ | ⟨-, rfl⟩ := mstepOnce_cases h
  · exact logGrows_commit rfl
  · exact logGrows_commit (execMtake_log hu)
  · exact logGrows_commit (execMspd_log hu)
  · exact logGrows_commit (State.withSt_log _ _)

/-- What every single step adds to, a count adds to. -/
theorem counted_logGrows {f : State → Result} (one : ∀ s t, f s = .next t → LogGrows s t) {n : Nat} {s t : State}
    (h : counted f n s = .next t) : LogGrows s t :=
  repeatStep_relates LogGrows.refl (fun _ _ _ => List.IsSuffix.trans) one n s t (counted_eq_next.mp h).2

theorem exec_logGrows {i : Instr} {s t : State} (h : exec i s = .next t) : LogGrows s t := by
  cases i with
  | rise => exact execRise_logGrows h
  | fall => exact execFall_logGrows h
  | ctick n => exact counted_logGrows (fun _ _ => ctickOnce_logGrows) h
  | stick n => exact counted_logGrows (fun _ _ => stickOnce_logGrows) h
  | mstep n => exact counted_logGrows (fun _ _ => mstepOnce_logGrows) h
  | reset => cases h; exact logGrows_commit (State.withSt_log _ _)
  | mtake => rw [LogGrows, execMtake_log h]
  | mspd => rw [LogGrows, execMspd_log h]
  | capr | capf | tmo | cmpa | cmpb | mind => cases h; exact LogGrows.refl s

/-- Settles O59: history and observation read the records oldest first, so records written later come last. -/
theorem historyOnlyGrows : Obligations.HistoryOnlyGrows := by
  intro i s t h
  have hLog : s.log.reverse <+: t.log.reverse := List.reverse_prefix.mpr (exec_logGrows h)
  exact ⟨hLog.flatMap _, hLog.map _⟩

end Sys2Proof.Machine
end

section
/-! Proofs: the two edges and one capture tick, each case as an equation (spec/40_pulse_decoder.md R111 to R113, R117 to
R120). -/

namespace Sys2Proof.Machine

theorem execRise_of_captured {s : State} (hl : s.st.lvl = false) (hp : s.st.phase = .WR) :
    execRise s = .next (commit .rise (some .capr) (s.withSt (s.st.setLvl true).captureRise)) := by
  simp [execRise, hl, hp, service]

theorem execRise_of_ignored {s : State} (hl : s.st.lvl = false) (hp : s.st.phase = .WF) :
    execRise s = .next (commit .rise none (s.withSt (s.st.setLvl true))) := by
  simp [execRise, hl, hp]

theorem execFall_of_captured {s : State} (hl : s.st.lvl = true) (hp : s.st.phase = .WF) :
    execFall s = .next (commit .fall (some .capf) (s.withSt (s.st.setLvl false).captureFall)) := by
  simp [execFall, hl, hp, service]

theorem execFall_of_ignored {s : State} (hl : s.st.lvl = true) (hp : s.st.phase = .WR) :
    execFall s = .next (commit .fall none (s.withSt (s.st.setLvl false))) := by
  simp [execFall, hl, hp]

/-- Settles O19: the codings by evaluation, and RISE's equation in each of its cases. -/
theorem riseEffect : Obligations.RiseEffect :=
  ⟨by decide, fun _ => ⟨rfl, execRise_of_high, execRise_of_captured, execRise_of_ignored⟩⟩

/-- Settles O20: the codings by evaluation, and FALL's equation in each of its cases. -/
theorem fallEffect : Obligations.FallEffect :=
  ⟨by decide, fun _ => ⟨rfl, execFall_of_low, execFall_of_captured, execFall_of_ignored⟩⟩

/-! ## One capture tick within clauses 1 to 6 -/

theorem ctickOnce_of_below {s : State} (h : s.Inv6) (hr : s.st.cap_run = true)
    (hlt : s.st.cap_cnt.toNat + 1 < s.cfg.TMO_TICKS) :
    ctickOnce s = .next (commit (.ctick 1) none (s.withSt s.st.countCapture)) := by
  obtain ⟨hv, hc⟩ := h
  obtain ⟨hSucc, -⟩ := hc.cap_cnt_succ hv hr
  rcases ctickOnce_cases s with ⟨-, hAt, -⟩ | ⟨-, -, hEq⟩ | ⟨hStop, -⟩
  · omega
  · exact hEq
  · exact absurd (hr.symm.trans hStop) (by decide)

theorem ctickOnce_of_reached {s : State} (h : s.Inv6) (hr : s.st.cap_run = true)
    (hAt : s.st.cap_cnt.toNat + 1 = s.cfg.TMO_TICKS) :
    ctickOnce s = .next (commit (.ctick 1) (some .tmo) (s.withSt s.st.countCapture.timeOut)) := by
  obtain ⟨hv, hc⟩ := h
  obtain ⟨hSucc, -⟩ := hc.cap_cnt_succ hv hr
  rcases ctickOnce_cases s with ⟨-, -, hEq⟩ | ⟨-, hNe, -⟩ | ⟨hStop, -⟩
  · exact hEq
  · exact absurd (hSucc.trans hAt) hNe
  · exact absurd (hr.symm.trans hStop) (by decide)

theorem ctickOnce_of_stopped {s : State} (hr : s.st.cap_run = false) :
    ctickOnce s = .next (commit (.ctick 1) none s) := by
  simp [ctickOnce, hr]

theorem decode_ctick {n : Nat} (hn : 1 ≤ n) (hn' : n ≤ 4095) :
    decode (BitVec.ofNat 16 (0x3000 + n)) = .stim (.ctick n) :=
  wordOf_of_lt (op := 0x3) (Nat.lt_succ_of_le hn') ▸ decode_encode (i := .ctick n) rfl (countFits_iff.mpr ⟨hn, hn'⟩)

/-- Settles O21: the codings, the count by R86, and the equation of one tick below the timeout, at it and stopped. -/
theorem captureTick : Obligations.CaptureTick := by
  refine ⟨by decide, fun n hn hn' => ⟨decode_ctick hn hn', fun _ => exec_eq_execAll_replicate isCountOp_ctick hn _⟩,
    fun _ => rfl, fun s h => ⟨fun hr hlt => ?_, fun hr hAt => ?_, fun hr => ?_⟩⟩
  · obtain ⟨hSucc, -⟩ := h.2.cap_cnt_succ h.1 hr
    exact ⟨_, hSucc, (counted_one ctickOnce s).trans (ctickOnce_of_below h hr hlt)⟩
  · obtain ⟨hSucc, -⟩ := h.2.cap_cnt_succ h.1 hr
    exact ⟨_, hSucc.trans hAt, (counted_one ctickOnce s).trans (ctickOnce_of_reached h hr hAt)⟩
  · exact (counted_one ctickOnce s).trans (ctickOnce_of_stopped hr)

end Sys2Proof.Machine
end

section
/-! Proofs: any number of capture ticks (spec/40_pulse_decoder.md R113, R116, R121, R124). -/

namespace Sys2Proof.Machine

/-- The cells after `n` capture ticks with no edge between them: the count since the last captured edge, or the timeout
from its TMO_TICKS-th tick on (R115, R124). -/
def Cells.afterCaptureTicks (cfg : Config) (c : Cells) (n : Nat) : Cells :=
  if c.cap_run = false then c
  else if c.cap_cnt.toNat + n < cfg.TMO_TICKS then { c with cap_cnt := BitVec.ofNat 16 (c.cap_cnt.toNat + n) }
  else { c with cap_cnt := BitVec.ofNat 16 cfg.TMO_TICKS, cap_run := false, tmo := true, phase := .WR }

section
variable {cfg : Config} {c : Cells} {n : Nat}

theorem Cells.afterCaptureTicks_of_stopped (hr : c.cap_run = false) : c.afterCaptureTicks cfg n = c := if_pos hr

theorem Cells.afterCaptureTicks_of_below (hr : c.cap_run = true) (hlt : c.cap_cnt.toNat + n < cfg.TMO_TICKS) :
    c.afterCaptureTicks cfg n = { c with cap_cnt := BitVec.ofNat 16 (c.cap_cnt.toNat + n) } := by
  simp [Cells.afterCaptureTicks, hr, hlt]

theorem Cells.afterCaptureTicks_of_reached (hr : c.cap_run = true) (hle : cfg.TMO_TICKS ≤ c.cap_cnt.toNat + n) :
    c.afterCaptureTicks cfg n =
      { c with cap_cnt := BitVec.ofNat 16 cfg.TMO_TICKS, cap_run := false, tmo := true, phase := .WR } := by
  simp [Cells.afterCaptureTicks, hr, hle.not_gt]

theorem Cells.INV6.afterCaptureTicks_zero (h : c.INV6 cfg) : c.afterCaptureTicks cfg 0 = c := by
  obtain ⟨-, -, ⟨-, hRun, -⟩, -⟩ := h
  cases hr : c.cap_run with
  | false => exact Cells.afterCaptureTicks_of_stopped hr
  | true => simp [Cells.afterCaptureTicks_of_below (n := 0) hr (hRun hr)]

/-- A counter that one tick leaves running counts on to the same timeout; one that it stops stays at it (R116). -/
theorem Cells.afterCaptureTicks_succ (hTmo : cfg.TMO_TICKS < 65536) :
    (c.afterCaptureTicks cfg 1).afterCaptureTicks cfg n = c.afterCaptureTicks cfg (n + 1) := by
  cases hr : c.cap_run with
  | false => simp [Cells.afterCaptureTicks_of_stopped hr]
  | true =>
    by_cases hOne : c.cap_cnt.toNat + 1 < cfg.TMO_TICKS
    · have hCnt : (BitVec.ofNat 16 (c.cap_cnt.toNat + 1)).toNat = c.cap_cnt.toNat + 1 :=
        Nat.mod_eq_of_lt (by omega)
      simp [Cells.afterCaptureTicks, hr, hOne, hCnt, Nat.add_right_comm, Nat.add_assoc]
    · rw [Cells.afterCaptureTicks_of_reached hr (by omega), Cells.afterCaptureTicks_of_stopped rfl,
        Cells.afterCaptureTicks_of_reached hr (by omega)]

end

/-- One tick, its record aside (R113). -/
theorem ctickOnce_eq_afterCaptureTicks {s : State} (h : s.Inv6) :
    ∃ act, ctickOnce s = .next (commit (.ctick 1) act (s.withSt (s.st.afterCaptureTicks s.cfg 1))) := by
  cases hr : s.st.cap_run with
  | false => exact ⟨none, by rw [ctickOnce_of_stopped hr, Cells.afterCaptureTicks_of_stopped hr, State.withSt_st_self]⟩
  | true =>
    obtain ⟨hSucc, hLe⟩ := h.2.cap_cnt_succ h.1 hr
    have hCnt : BitVec.ofNat 16 (s.st.cap_cnt.toNat + 1) = s.st.cap_cnt + 1#16 := by
      rw [← hSucc, BitVec.ofNat_toNat, BitVec.setWidth_eq]
    by_cases hAt : s.st.cap_cnt.toNat + 1 = s.cfg.TMO_TICKS
    · refine ⟨some .tmo, ?_⟩
      rw [ctickOnce_of_reached h hr hAt, Cells.afterCaptureTicks_of_reached hr hAt.ge, ← hAt, hCnt]
      rfl
    · have hlt := Nat.lt_of_le_of_ne hLe hAt
      refine ⟨none, ?_⟩
      rw [ctickOnce_of_below h hr hlt, Cells.afterCaptureTicks_of_below hr hlt, hCnt]
      rfl

theorem repeatStep_ctickOnce {s : State} (h : s.Inv6) (n : Nat) :
    ∃ t, repeatStep ctickOnce n s = .next t ∧ t.log.length = s.log.length + n ∧
      t.st = s.st.afterCaptureTicks s.cfg n := by
  induction n generalizing s with
  | zero => exact ⟨s, rfl, rfl, h.2.afterCaptureTicks_zero.symm⟩
  | succ n ih =>
    obtain ⟨-, hTmo, -⟩ := timers_fit_of_validConfig h.1
    obtain ⟨act, hOne⟩ := ctickOnce_eq_afterCaptureTicks h
    obtain ⟨u, hu, hInv⟩ := ctickOnce_of_inv6 h
    cases hOne.symm.trans hu
    obtain ⟨t, ht, hLog, hSt⟩ := ih hInv
    refine ⟨t, andThen_eq_next.mpr ⟨_, hOne, ht⟩, ?_, hSt.trans (Cells.afterCaptureTicks_succ hTmo)⟩
    rw [hLog, commit_log, List.length_cons, State.withSt_log, Nat.add_right_comm, Nat.add_assoc]

/-- Settles O22: the closed form of `n` ticks in each of its cases. -/
theorem captureTicks : Obligations.CaptureTicks := by
  intro s n h hn
  obtain ⟨t, ht, hLog, hSt⟩ := repeatStep_ctickOnce h n
  have hExec : exec (.ctick n) s = .next t := (counted_pos ctickOnce hn s).trans ht
  obtain ⟨-, hCfg, hTrace⟩ := exec_frame hExec
  exact ⟨t, hExec, hCfg, hTrace, hLog, fun hr hlt => hSt.trans (Cells.afterCaptureTicks_of_below hr hlt),
    fun hr hle => hSt.trans (Cells.afterCaptureTicks_of_reached hr hle),
    fun hr => hSt.trans (Cells.afterCaptureTicks_of_stopped hr)⟩

end Sys2Proof.Machine
end

section
/-! Proofs: the width of a pulse, whatever runs between its edges, and the first frame after a timeout
(spec/40_pulse_decoder.md R122, R125). -/

namespace Sys2Proof.Machine

/-- A step of one of the two clocks or of the main loop, the agents that run between two edges (R15). -/
def ClockOrMain (i : Instr) : Prop := agentOf i = some .CAP_CLK ∨ agentOf i = some .SW_CLK ∨ agentOf i = some .MAIN

/-- No state within clauses 1 to 6 stops a clock or the main loop (R113, R162, R209). -/
theorem ClockOrMain.exec_completes {i : Instr} (hi : ClockOrMain i) (hw : i.wellFormed = true) {s : State}
    (h : s.Inv6) : ∃ t, exec i s = .next t ∧ t.Inv6 := by
  cases i with
  | ctick n => exact counted_completes (fun _ => ctickOnce_of_inv6) (countFits_iff.mp hw).1 h
  | stick n => exact counted_completes (fun _ => stickOnce_of_inv6) (countFits_iff.mp hw).1 h
  | mstep n => exact counted_completes (fun _ => mstepOnce_of_inv6) (countFits_iff.mp hw).1 h
  | _ => simp [ClockOrMain, agentOf] at hi

/-- Between a captured RISE and its FALL, `k` capture ticks after the RISE. -/
structure InPulse (cfg : Config) (k : Nat) (s : State) : Prop where
  cfg_eq : s.cfg = cfg
  inv6 : s.Inv6
  lvl : s.st.lvl = true
  phase : s.st.phase = .WF
  cap_run : s.st.cap_run = true
  cap_cnt : s.st.cap_cnt.toNat = k

/-- A captured RISE starts the count at 0 (R117). -/
theorem InPulse.of_rise {s t : State} (h : s.Inv6) (hp : s.st.phase = .WR) (ht : exec .rise s = .next t) :
    InPulse s.cfg 0 t := by
  have hInv : t.Inv6 := (exec_within_inv6 rfl h).next ht
  obtain ⟨-, ⟨-, rfl⟩ | ⟨hWF, -⟩⟩ := execRise_cases ht
  · exact ⟨rfl, hInv, rfl, rfl, rfl, rfl⟩
  · exact absurd (hp.symm.trans hWF) (by decide)

section
variable {cfg : Config} {k : Nat} {s : State}

/-- A step that leaves the decoder and the line adds nothing to the width. -/
theorem InPulse.of_sameDecoder {t : State} (h : InPulse cfg k s) (hInv : t.Inv6) (hCfg : t.cfg = s.cfg)
    (hDec : sameDecoder s.st t.st) (hLvl : s.st.lvl = t.st.lvl) : InPulse cfg k t := by
  obtain ⟨hPhase, hCnt, hRun, -⟩ := hDec
  exact ⟨hCfg.trans h.cfg_eq, hInv, hLvl ▸ h.lvl, hPhase ▸ h.phase, hRun ▸ h.cap_run, hCnt ▸ h.cap_cnt⟩

/-- Ticks that do not reach the timeout add their number to the width. -/
theorem InPulse.ctick {t : State} (h : InPulse cfg k s) {n : Nat} (hlt : k + n < cfg.TMO_TICKS)
    (ht : exec (.ctick n) s = .next t) : InPulse cfg (k + n) t := by
  obtain ⟨rfl, hInv, hLvl, hPhase, hRun, rfl⟩ := h
  obtain ⟨-, hTmo, -⟩ := timers_fit_of_validConfig hInv.1
  obtain ⟨u, hu, hCfg, -, -, hBelow, -⟩ := captureTicks s n hInv (counted_eq_next.mp ht).1
  cases hu.symm.trans ht
  have hSt := hBelow hRun hlt
  have hCnt : t.st.cap_cnt.toNat = s.st.cap_cnt.toNat + n := by
    rw [hSt]
    exact Nat.mod_eq_of_lt (by omega)
  exact ⟨hCfg, (exec_within_inv6 rfl hInv).next ht, by rw [hSt]; exact hLvl, by rw [hSt]; exact hPhase,
    by rw [hSt]; exact hRun, hCnt⟩

/-- A step of a clock or of the main loop completes inside a pulse, and adds its capture ticks to the width. -/
theorem InPulse.exec_completes (h : InPulse cfg k s) {i : Instr} (hw : i.wellFormed = true) (hi : ClockOrMain i)
    (hlt : k + captureSteps i < cfg.TMO_TICKS) :
    ∃ t, exec i s = .next t ∧ InPulse cfg (k + captureSteps i) t := by
  obtain ⟨t, ht, hInv⟩ := hi.exec_completes hw h.inv6
  refine ⟨t, ht, ?_⟩
  cases i with
  | ctick n => exact h.ctick hlt ht
  | stick n =>
    obtain ⟨⟨hDec, -, -, hLvl⟩, hCfg, -⟩ := exec_frame ht
    exact h.of_sameDecoder hInv hCfg hDec hLvl
  | mstep n =>
    obtain ⟨⟨hDec, -, hLvl⟩, hCfg, -⟩ := exec_frame ht
    exact h.of_sameDecoder hInv hCfg hDec hLvl
  | _ => simp [ClockOrMain, agentOf] at hi

theorem InPulse.execAll_completes (h : InPulse cfg k s) {ops : List Instr}
    (hops : ∀ i ∈ ops, i.wellFormed = true ∧ ClockOrMain i)
    (hlt : k + (ops.map captureSteps).sum < cfg.TMO_TICKS) :
    ∃ t, execAll ops s = .next t ∧ InPulse cfg (k + (ops.map captureSteps).sum) t := by
  induction ops generalizing k s with
  | nil => exact ⟨s, rfl, h⟩
  | cons i ops ih =>
    rw [List.map_cons, List.sum_cons, ← Nat.add_assoc] at hlt ⊢
    obtain ⟨⟨hw, hi⟩, hRest⟩ := List.forall_mem_cons.mp hops
    obtain ⟨u, hu, hPulse⟩ := h.exec_completes hw hi (by omega)
    obtain ⟨t, ht, hEnd⟩ := ih hPulse hRest hlt
    exact ⟨t, andThen_eq_next.mpr ⟨u, hu, ht⟩, hEnd⟩

end

/-- The FALL that ends a pulse is captured (R118). -/
theorem execAll_pulse {cfg : Config} {k : Nat} {s u v : State} {ops : List Instr} (hu : exec .rise s = .next u)
    (hv : execAll ops u = .next v) (h : InPulse cfg k v) :
    execAll (.rise :: (ops ++ [.fall])) s =
      .next (commit .fall (some .capf) (v.withSt (v.st.setLvl false).captureFall)) := by
  rw [execAll_cons, hu, andThen_next, execAll_append, hv, andThen_next, execAll_singleton]
  exact execFall_of_captured h.lvl h.phase

/-- Settles O23: the count starts at 0 with the captured RISE, every step between adds its capture ticks, and FALL records
it. -/
theorem pulseWidthIsTickCount : Obligations.PulseWidthIsTickCount := by
  intro s ops h hl hp hops hlt
  obtain ⟨u, hu⟩ := execRise_enabled hl
  have hStart : InPulse s.cfg 0 u := InPulse.of_rise h hp hu
  obtain ⟨v, hv, hEnd⟩ := hStart.execAll_completes hops (by omega)
  exact ⟨_, execAll_pulse hu hv hEnd, congrArg some (hEnd.cap_cnt.trans (Nat.zero_add _)), rfl, rfl, rfl⟩

/-- A frame on a low line in WR is decoded whole: its width becomes the sample (R111 to R113). -/
theorem frame_decoded {s : State} {w : Nat} (h : s.Inv6) (hl : s.st.lvl = false) (hp : s.st.phase = .WR) (hw : 1 ≤ w)
    (hlt : w < s.cfg.TMO_TICKS) :
    ∃ t, execAll [.rise, .ctick w, .fall] s = .next t ∧
      t.st = { s.st with
        lvl := false, sample := some (BitVec.ofNat 16 w), ready := true, phase := .WR, cap_cnt := 0#16,
        cap_run := true } := by
  have hRise := execRise_of_captured hl hp
  have hStart := InPulse.of_rise h hp hRise
  have hFits : 0 + w < s.cfg.TMO_TICKS := by omega
  obtain ⟨v, hv, -, -, -, hBelow, -⟩ := captureTicks _ w hStart.inv6 hw
  refine ⟨_, execAll_pulse hRise ((execAll_singleton _ _).trans hv) (hStart.ctick hFits hv), ?_⟩
  rw [commit_st, State.withSt_st, hBelow rfl hFits]
  simp [Cells.captureFall, Cells.setLvl, Cells.captureRise]

/-- Settles O24: a stopped counter waits for a rising edge (R53 clause 3), so a FALL is ignored and the frame of the next
RISE decoded. -/
theorem selfHealing : Obligations.SelfHealing := by
  intro s w h hr hw hlt
  have hp : s.st.phase = .WR := by
    obtain ⟨-, -, -, ⟨-, -, hStop⟩, -⟩ := h
    exact (hStop hr).2
  cases hl : s.st.lvl with
  | false =>
    refine ⟨nofun, ?_⟩
    simpa using frame_decoded h hl hp hw hlt
  | true =>
    have hFall := execFall_of_ignored hl hp
    refine ⟨fun _ => ⟨_, hFall, rfl⟩, ?_⟩
    have hInv := (exec_within_inv6 (i := .fall) rfl h).next hFall
    obtain ⟨t, ht, hSt⟩ := frame_decoded hInv rfl hp hw hlt
    exact ⟨t, andThen_eq_next.mpr ⟨_, hFall, ht⟩, hSt⟩

end Sys2Proof.Machine
end

section
/-! Proofs: the arithmetic laws of the speed translator, stage by stage, for every configuration
(spec/41_speed_translator.md R142 to R146). -/

namespace Sys2Proof.Machine

/-! ## Scale (R145) -/

theorem roundDiv_natCast {D : Nat} (hD : 1 ≤ D) (a : Nat) : roundDiv a D = roundMag a D := by
  cases a with
  | zero => simp [hD]
  | succ n => rw [roundDiv, Int.sign_eq_one_of_pos (Int.natCast_succ_pos n), Int.one_mul, Int.natAbs_natCast]

theorem roundDiv_natAbs {D : Nat} (hD : 1 ≤ D) (d : Int) : (roundDiv d D).natAbs = roundMag d.natAbs D := by
  obtain ⟨a, rfl | rfl⟩ := d.eq_nat_or_neg <;> simp [roundDiv_natCast hD]

theorem roundDiv_mono {D : Nat} (hD : 1 ≤ D) {d e : Int} (h : d ≤ e) : roundDiv d D ≤ roundDiv e D := by
  have hMag {a b : Nat} (hab : a ≤ b) : (roundMag a D : Int) ≤ roundMag b D := mod_cast roundMag_mono hab
  obtain ⟨a, rfl | rfl⟩ := d.eq_nat_or_neg <;> obtain ⟨b, rfl | rfl⟩ := e.eq_nat_or_neg <;>
    simp only [roundDiv_neg, roundDiv_natCast hD]
  · exact hMag (by omega)
  · obtain ⟨rfl, rfl⟩ : a = 0 ∧ b = 0 := by omega
    simp [hD]
  · omega
  · exact Int.neg_le_neg (hMag (by omega))

/-- The magnitude times `D` is within half of `D` of what it rounds. -/
theorem roundMag_nearest {D : Nat} (hD : 1 ≤ D) (a : Nat) :
    2 * D * roundMag a D ≤ 2 * a + D ∧ 2 * a < 2 * D * roundMag a D + D := by
  have hLt := Nat.lt_mul_div_succ (2 * a + D) (show 0 < 2 * D by omega)
  rw [Nat.mul_add_one] at hLt
  exact ⟨Nat.mul_div_le _ _, by unfold roundMag; omega⟩

theorem roundDiv_nearest {D : Nat} (hD : 1 ≤ D) (d : Int) : (2 * D * roundDiv d D - 2 * d).natAbs ≤ D := by
  obtain ⟨a, ha⟩ := d.eq_nat_or_neg
  have hMag : (2 * D * roundMag a D : Int) ≤ 2 * a + D ∧ (2 * a : Int) < 2 * D * roundMag a D + D :=
    mod_cast roundMag_nearest hD a
  rcases ha with rfl | rfl
  · rw [roundDiv_natCast hD]
    omega
  · rw [roundDiv_neg, roundDiv_natCast hD, Int.mul_neg]
    omega

/-! ## Clamp and deadband (R143, R144) -/

theorem clampWidth_of_mem {cfg : Config} {w : Nat} (hLo : cfg.CLAMP_LO ≤ w) (hHi : w ≤ cfg.CLAMP_HI) :
    clampWidth cfg w = w := by
  unfold clampWidth; omega

/-- A clamp band that is symmetric about the centre clamps mirrored widths to mirrored widths. -/
theorem clampWidth_mirror {cfg : Config} (hLe : cfg.CLAMP_LO ≤ cfg.CLAMP_HI)
    (hClamp : cfg.CLAMP_LO + cfg.CLAMP_HI = 2 * cfg.CENTER) {v w : Nat}
    (h : v + w = 2 * cfg.CENTER) : clampWidth cfg v + clampWidth cfg w = 2 * cfg.CENTER := by
  unfold clampWidth; omega

/-- Stage 3 in its two cases, the bound of the deadband included. -/
theorem centred_split (cfg : Config) (c : Nat) :
    (((c : Int) - cfg.CENTER).natAbs ≤ cfg.DEADBAND ∧ centred cfg c = 0) ∨
    (cfg.DEADBAND < ((c : Int) - cfg.CENTER).natAbs ∧ centred cfg c = (c : Int) - cfg.CENTER) := by
  by_cases h : ((c : Int) - cfg.CENTER).natAbs ≤ cfg.DEADBAND
  · exact .inl ⟨h, if_pos h⟩
  · exact .inr ⟨Nat.lt_of_not_le h, if_neg h⟩

theorem centred_mono (cfg : Config) {c d : Nat} (h : c ≤ d) : centred cfg c ≤ centred cfg d := by
  rcases centred_split cfg c with hc | hc <;> rcases centred_split cfg d with hd | hd <;> omega

theorem centred_mirror {cfg : Config} {c d : Nat} (h : c + d = 2 * cfg.CENTER) : centred cfg c = -centred cfg d := by
  rcases centred_split cfg c with hc | hc <;> rcases centred_split cfg d with hd | hd <;> omega

/-! ## The whole function (R146) -/

theorem speedOfWidth_rejected {cfg : Config} {w : Nat} (h : w ≤ cfg.TOL_LO ∨ cfg.TOL_HI ≤ w) :
    speedOfWidth cfg w = 0 := if_pos h

theorem speedOfWidth_accepted {cfg : Config} {w : Nat} (hLo : cfg.TOL_LO < w) (hHi : w < cfg.TOL_HI) :
    speedOfWidth cfg w = roundDiv (centred cfg (clampWidth cfg w)) cfg.DIVISOR := if_neg (by omega)

theorem speedOfWidth_mono {cfg : Config} (hD : 1 ≤ cfg.DIVISOR) {v w : Nat} (hLo : cfg.TOL_LO < v) (h : v ≤ w)
    (hHi : w < cfg.TOL_HI) : speedOfWidth cfg v ≤ speedOfWidth cfg w := by
  rw [speedOfWidth_accepted hLo (by omega), speedOfWidth_accepted (by omega) hHi]
  exact roundDiv_mono hD (centred_mono cfg (clampWidth_mono cfg h))

/-- Where the tolerance band and the clamp band are symmetric about the centre, mirrored widths give opposite speeds. -/
theorem speedOfWidth_mirror {cfg : Config} (hTol : cfg.TOL_LO + cfg.TOL_HI = 2 * cfg.CENTER)
    (hLe : cfg.CLAMP_LO ≤ cfg.CLAMP_HI) (hClamp : cfg.CLAMP_LO + cfg.CLAMP_HI = 2 * cfg.CENTER) {v w : Nat}
    (h : v + w = 2 * cfg.CENTER) :
    speedOfWidth cfg v = -speedOfWidth cfg w := by
  by_cases hv : v ≤ cfg.TOL_LO ∨ cfg.TOL_HI ≤ v
  · rw [speedOfWidth_rejected hv, speedOfWidth_rejected (by omega), Int.neg_zero]
  · rw [speedOfWidth_accepted (by omega) (by omega), speedOfWidth_accepted (by omega) (by omega),
      centred_mirror (clampWidth_mirror hLe hClamp h), roundDiv_neg]

/-- A speed that is not 0 comes from beyond the deadband. -/
theorem speedOfWidth_zero_or_ge {cfg : Config} (hD : 1 ≤ cfg.DIVISOR) (w : Nat) :
    speedOfWidth cfg w = 0 ∨ roundMag (cfg.DEADBAND + 1) cfg.DIVISOR ≤ (speedOfWidth cfg w).natAbs := by
  by_cases hw : w ≤ cfg.TOL_LO ∨ cfg.TOL_HI ≤ w
  · exact .inl (speedOfWidth_rejected hw)
  rw [speedOfWidth_accepted (by omega) (by omega), roundDiv_natAbs hD]
  rcases centred_split cfg (clampWidth cfg w) with ⟨-, hEq⟩ | ⟨hFar, hEq⟩
  · exact .inl (by rw [hEq, roundDiv_zero])
  · exact .inr (roundMag_mono (by rw [hEq]; exact hFar))

end Sys2Proof.Machine
end

section
/-! Proofs: the speed translator with the source's values (spec/00_scope.md R9, spec/41_speed_translator.md R141,
R147 to R152). -/

namespace Sys2Proof.Machine

/-- Settles O28: the narrowing of R146 is exact, and the integer it narrows is at most 100 in magnitude. -/
theorem translateFitsSpeed : Obligations.TranslateFitsSpeed := by
  intro cfg w h
  have hExact := translate_toInt h w
  have hRange := speedOfWidth_natAbs_le h w.toNat
  exact ⟨by omega, by omega, hExact⟩

/-- The translator reads neither of the two OPEN values. -/
theorem translate_source (top : Nat) (level : Bool) :
    translate (Config.source top level) = translate (Config.source 100 false) := rfl

/-- So the narrowing is exact for every `top`, also where `launch` would refuse it. -/
theorem translate_source_toInt (top : Nat) (level : Bool) (w : CapTicks) :
    (translate (Config.source top level) w).toInt = speedOfWidth (Config.source 100 false) w.toNat := by
  rw [translate_source]
  exact translate_toInt (by decide) w

/-- In the clamp band the first two stages change nothing. -/
theorem speedOfWidth_source_of_mem {w : Nat} (hLo : 1000 ≤ w) (hHi : w ≤ 2000) :
    speedOfWidth (Config.source 100 false) w = roundDiv (centred (Config.source 100 false) w) 5 := by
  rw [speedOfWidth_accepted (show 800 < w by omega) (show w < 2200 by omega), clampWidth_of_mem hLo hHi]
  rfl

/-- Settles O26: the three parts of R149, the odd divisor excluding a tie. -/
theorem translateAgreesWithSource : Obligations.TranslateAgreesWithSource := by
  intro top level w
  rw [translate_source_toInt]
  refine ⟨fun hLo hHi => ?_, fun hOut => speedOfWidth_rejected hOut⟩
  rw [speedOfWidth_source_of_mem hLo hHi]
  split
  next hNear =>
    have hZero : centred (Config.source 100 false) w.toNat = 0 := if_pos hNear
    rw [hZero, roundDiv_zero]
  next hFar =>
    have hDist : centred (Config.source 100 false) w.toNat = (w.toNat : Int) - 1500 := if_neg hFar
    have hNearest := roundDiv_nearest (D := 5) (by decide) ((w.toNat : Int) - 1500)
    rw [hDist]
    omega

/-- Settles O27: the least magnitude is that of the first width beyond the deadband, the greatest that of R141. -/
theorem translateRange : Obligations.TranslateRange := by
  intro top level
  refine ⟨fun w => ?_, ?_⟩
  · rw [translate_source_toInt]
    have hMin : 15 ≤ roundMag 76 5 := by decide
    exact (speedOfWidth_zero_or_ge (by decide) w.toNat).imp_right fun hGe =>
      ⟨hMin.trans hGe, speedOfWidth_natAbs_le (by decide) w.toNat⟩
  · rw [translate_source]
    decide

/-- Settles O29: clamp, deadband and rounding are each non-decreasing; the jumps are evaluated at their two sides. -/
theorem translateMonotone : Obligations.TranslateMonotone := by
  intro top level
  refine ⟨fun v w hLo hvw hHi => ?_, ?_⟩
  · rw [translate_source_toInt, translate_source_toInt]
    exact speedOfWidth_mono (by decide) hLo hvw hHi
  · rw [translate_source]
    decide

/-- Settles O30: the source's bands are symmetric about 1500, and both widths fit a sample. -/
theorem translateSymmetric : Obligations.TranslateSymmetric := by
  intro top level k hk
  have hHi : (BitVec.ofNat 16 (1500 + k)).toNat = 1500 + k := Nat.mod_eq_of_lt (by omega)
  have hLo : (BitVec.ofNat 16 (1500 - k)).toNat = 1500 - k := Nat.mod_eq_of_lt (by omega)
  rw [translate_source_toInt, translate_source_toInt, hHi, hLo]
  exact speedOfWidth_mirror rfl (by decide) rfl (show 1500 + k + (1500 - k) = 2 * 1500 by omega)

/-- Settles O25: R152's values do not depend on the OPEN values, so each is evaluated once. -/
theorem translateWorkedValues : Obligations.TranslateWorkedValues := by
  intro top level
  rw [translate_source]
  decide

end Sys2Proof.Machine
end

section
/-! Proofs: the atomic steps a stimulus is made of, and the record each one leaves (spec/30_encoding.md R86, R89,
R97). -/

namespace Sys2Proof.Machine

/-- One single step of a stimulus (R86): the operation itself, with the count 1 where it has a count. -/
def singleOf : Instr → Instr
  | .ctick _ => .ctick 1
  | .stick _ => .stick 1
  | .mstep _ => .mstep 1
  | i => i

theorem singleOf_isStimulus {i : Instr} (hi : i.isStimulus = true) : (singleOf i).isStimulus = true := by
  cases i with
  | ctick n => rfl
  | stick n => rfl
  | mstep n => rfl
  | _ => exact hi

/-- What a count of 1 keeps, every count keeps. -/
theorem counted_keeps {f : State → Result} {P : State → Prop} (one : ∀ u v, P u → counted f 1 u = .next v → P v)
    {n : Nat} {s t : State} (h : P s) (ht : counted f n s = .next t) : P t :=
  repeatStep_keeps (fun u v hu hv => one u v hu ((counted_one f u).trans hv)) n s t h (counted_eq_next.mp ht).2

/-- What every atomic step of an operation keeps, the operation keeps. -/
theorem exec_keeps_of_singleOf {i : Instr} {P : State → Prop}
    (one : ∀ u v, P u → exec (singleOf i) u = .next v → P v) {s t : State} (h : P s) (ht : exec i s = .next t) :
    P t := by
  cases i with
  | ctick n => exact counted_keeps one h ht
  | stick n => exact counted_keeps one h ht
  | mstep n => exact counted_keeps one h ht
  | _ => exact one s t h ht

/-- From `s` to `t` one record is written: the stimulus word `i`, and the output ports after the step. -/
def RecordsStep (i : Instr) (s t : State) : Prop :=
  ∃ act, t.log = ⟨encode i, act, t.st.hb, t.st.ind⟩ :: s.log

theorem recordsStep_commit {i : Instr} {a : Option Instr} {s u : State} (h : u.log = s.log) :
    RecordsStep i s (commit i a u) := ⟨_, by rw [commit_log, h]; rfl⟩

theorem execRise_recordsStep {s t : State} (h : execRise s = .next t) : RecordsStep .rise s t := by
  obtain ⟨-, ⟨-, rfl⟩ | ⟨-, rfl⟩⟩ := execRise_cases h
  · exact recordsStep_commit (State.withSt_log _ _)
  · exact recordsStep_commit (State.withSt_log _ _)

theorem execFall_recordsStep {s t : State} (h : execFall s = .next t) : RecordsStep .fall s t := by
  obtain ⟨-, ⟨-, rfl⟩ | ⟨-, rfl⟩⟩ := execFall_cases h
  · exact recordsStep_commit (State.withSt_log _ _)
  · exact recordsStep_commit (State.withSt_log _ _)

theorem ctickOnce_recordsStep {s t : State} (h : ctickOnce s = .next t) : RecordsStep (.ctick 1) s t := by
  rcases ctickOnce_cases s with ⟨-, -, hc⟩ | ⟨-, -, hc⟩ | ⟨-, hc⟩ <;> cases hc.symm.trans h
  · exact recordsStep_commit (State.withSt_log _ _)
  · exact recordsStep_commit (State.withSt_log _ _)
  · exact recordsStep_commit rfl

theorem stickOnce_recordsStep {s t : State} (h : stickOnce s = .next t) : RecordsStep (.stick 1) s t := by
  rcases stickOnce_cases s with ⟨-, hc⟩ | ⟨-, -, hc⟩ | ⟨-, -, hc⟩ <;> cases hc.symm.trans h
  · exact recordsStep_commit (State.withSt_log _ _)
  · exact recordsStep_commit (State.withSt_log _ _)
  · exact recordsStep_commit (State.withSt_log _ _)

theorem mstepOnce_recordsStep {s t : State} (h : mstepOnce s = .next t) : RecordsStep (.mstep 1) s t := by
  obtain ⟨-, -, rfl⟩ | ⟨-, -, u, hu, rfl⟩ | ⟨-, u, hu, rfl⟩ | ⟨-, rfl⟩ := mstepOnce_cases h
  · exact recordsStep_commit rfl
  · exact recordsStep_commit (execMtake_log hu)
  · exact recordsStep_commit (execMspd_log hu)
  · exact recordsStep_commit (State.withSt_log _ _)

theorem exec_singleOf_recordsStep {i : Instr} (hi : i.isStimulus = true) {s t : State}
    (h : exec (singleOf i) s = .next t) : RecordsStep (singleOf i) s t := by
  cases i with
  | rise => exact execRise_recordsStep h
  | fall => exact execFall_recordsStep h
  | ctick n => exact ctickOnce_recordsStep ((counted_one ctickOnce s).symm.trans h)
  | stick n => exact stickOnce_recordsStep ((counted_one stickOnce s).symm.trans h)
  | mstep n => exact mstepOnce_recordsStep ((counted_one mstepOnce s).symm.trans h)
  | reset => cases h; exact recordsStep_commit (State.withSt_log _ _)
  | _ => cases hi

end Sys2Proof.Machine
end

section
/-! Proofs: one switching tick and the two handlers it may run, each case as an equation
(spec/42_switching_scheduler.md R162, R164 to R166, R168). -/

namespace Sys2Proof.Machine

/-! ## The equations of STICK, one for each branch of R162 -/

theorem stickOnce_of_top {s : State} (ht : s.st.sw_cnt.toNat = s.cfg.SW_TOP) :
    stickOnce s = .next (commit (.stick 1) (some .cmpa) (s.withSt s.st.wrapSwitch.startPeriod)) := by
  rcases stickOnce_cases s with ⟨-, hEq⟩ | ⟨hNe, -⟩ | ⟨hNe, -⟩
  · exact hEq
  · exact absurd ht hNe
  · exact absurd ht hNe

theorem stickOnce_of_match {s : State} (ht : s.st.sw_cnt.toNat ≠ s.cfg.SW_TOP) (hm : s.st.sw_cnt + 1#8 = s.st.thr) :
    stickOnce s = .next (commit (.stick 1) (some .cmpb) (s.withSt s.st.countSwitch.recharge)) := by
  rcases stickOnce_cases s with ⟨hTop, -⟩ | ⟨-, -, hEq⟩ | ⟨-, hNe, -⟩
  · exact absurd hTop ht
  · exact hEq
  · exact absurd hm hNe

theorem stickOnce_of_no_match {s : State} (ht : s.st.sw_cnt.toNat ≠ s.cfg.SW_TOP)
    (hm : s.st.sw_cnt + 1#8 ≠ s.st.thr) :
    stickOnce s = .next (commit (.stick 1) none (s.withSt s.st.countSwitch)) := by
  rcases stickOnce_cases s with ⟨hTop, -⟩ | ⟨-, hEq, -⟩ | ⟨-, -, hEq⟩
  · exact absurd hTop ht
  · exact absurd hEq hm
  · exact hEq

/-! ## The handlers by themselves -/

theorem Cells.startPeriod_of_pos {c : Cells} (h : 0 < c.ms.toInt) :
    c.startPeriod = { c with hb := Hb.FWD, thr := c.startPeriod.thr } := by simp [Cells.startPeriod, h]

theorem Cells.startPeriod_of_neg {c : Cells} (h : c.ms.toInt < 0) :
    c.startPeriod = { c with hb := Hb.BWD, thr := c.startPeriod.thr } := by
  simp [Cells.startPeriod, h, h.not_gt]

theorem Cells.startPeriod_of_zero {c : Cells} (h : c.ms.toInt = 0) :
    c.startPeriod = { c with thr := c.startPeriod.thr } := by simp [Cells.startPeriod, h]

theorem exec_cmpa_of_startPeriod {s : State} {c : Cells} (h : s.st.startPeriod = c) :
    exec .cmpa s = .next { s with st := c } := h ▸ rfl

theorem decode_stick {n : Nat} (hn : 1 ≤ n) (hn' : n ≤ 4095) :
    decode (BitVec.ofNat 16 (0x4000 + n)) = .stim (.stick n) :=
  wordOf_of_lt (op := 0x4) (Nat.lt_succ_of_le hn') ▸ decode_encode (i := .stick n) rfl (countFits_iff.mpr ⟨hn, hn'⟩)

/-- Settles O31: the codings, the count by R86, the handlers' writes, and the equation of one tick at the top, at the
threshold and at any other count. -/
theorem switchTick : Obligations.SwitchTick := by
  refine ⟨by decide, fun n hn hn' => ⟨decode_stick hn hn', fun _ => exec_eq_execAll_replicate isCountOp_stick hn _⟩,
    fun _ => rfl, fun s => ⟨_, s.st.startPeriod_thr_toNat,
      fun hv => exec_cmpa_of_startPeriod (Cells.startPeriod_of_pos hv),
      fun hv => exec_cmpa_of_startPeriod (Cells.startPeriod_of_neg hv),
      fun hv => exec_cmpa_of_startPeriod (Cells.startPeriod_of_zero hv)⟩,
    fun s h => ⟨fun ht => ?_, fun ht => ?_⟩⟩
  · exact ⟨_, _, s.st.startPeriod_thr_toNat, rfl, (counted_one stickOnce s).trans (stickOnce_of_top ht)⟩
  · obtain ⟨hSucc, -⟩ := h.2.sw_cnt_succ h.1 ht
    exact ⟨_, hSucc, fun hm => (counted_one stickOnce s).trans (stickOnce_of_match ht hm),
      fun hm => (counted_one stickOnce s).trans (stickOnce_of_no_match ht hm)⟩

end Sys2Proof.Machine
end

section
/-! Proofs: any number of switching ticks, by themselves and among the steps of the other agents
(spec/42_switching_scheduler.md R163, R169, R174, R175). -/

namespace Sys2Proof.Machine

/-! ## What one tick leaves of the scheduler's cells -/

theorem stickOnce_keeps_inv6 {u v : State} (h : u.Inv6) (hv : stickOnce u = .next v) : v.Inv6 := by
  obtain ⟨w, hw, hInv⟩ := stickOnce_of_inv6 h
  cases hw.symm.trans hv
  exact hInv

/-- The tick that ends a period starts the next one with the speed it reads (R164, R166). -/
theorem stickOnce_at_top {u v : State} (ht : u.st.sw_cnt.toNat = u.cfg.SW_TOP) (hv : stickOnce u = .next v) :
    v.cfg = u.cfg ∧ v.st.sw_cnt.toNat = 0 ∧ v.st.thr.toNat = u.st.ms.toInt.natAbs ∧
      v.st.hb = if 0 < u.st.ms.toInt then Hb.FWD else if u.st.ms.toInt < 0 then Hb.BWD else u.st.hb := by
  cases (stickOnce_of_top ht).symm.trans hv
  exact ⟨rfl, rfl, u.st.startPeriod_thr_toNat, rfl⟩

/-- Any other tick counts, and the count `thr` recharges (R165, R168). -/
theorem stickOnce_below_top {u v : State} (h : u.Inv6) (ht : u.st.sw_cnt.toNat ≠ u.cfg.SW_TOP)
    (hv : stickOnce u = .next v) :
    v.cfg = u.cfg ∧ v.st.sw_cnt.toNat = u.st.sw_cnt.toNat + 1 ∧ v.st.thr = u.st.thr ∧
      v.st.hb = if u.st.sw_cnt.toNat + 1 = u.st.thr.toNat then Hb.RCH else u.st.hb := by
  obtain ⟨hSucc, -⟩ := h.2.sw_cnt_succ h.1 ht
  rw [← hSucc]
  by_cases hm : u.st.sw_cnt + 1#8 = u.st.thr
  · cases (stickOnce_of_match ht hm).symm.trans hv
    exact ⟨rfl, rfl, rfl, (if_pos (congrArg BitVec.toNat hm)).symm⟩
  · cases (stickOnce_of_no_match ht hm).symm.trans hv
    exact ⟨rfl, rfl, rfl, (if_neg (BitVec.toNat_inj.not.mpr hm)).symm⟩

/-! ## Counting the ticks of a run -/

/-- What every tick carries from `k` ticks to `k + 1`, a count of ticks carries by its number. -/
theorem repeatStep_stickOnce_carries {P : Nat → State → Prop}
    (tick : ∀ k u v, u.Inv6 → P k u → stickOnce u = .next v → P (k + 1) v) {n k : Nat} {s t : State} (hInv : s.Inv6)
    (h : P k s) (ht : repeatStep stickOnce n s = .next t) : P (k + n) t := by
  induction n generalizing k s with
  | zero => cases ht; exact h
  | succ n ih =>
    obtain ⟨u, hu, hRest⟩ := andThen_eq_next.mp ht
    have hEnd := ih (stickOnce_keeps_inv6 hInv hu) (tick k s u hInv h hu) hRest
    rwa [Nat.add_right_comm] at hEnd

/-- A step of any other agent than the switching clock, RESET apart, as the scheduler sees it. -/
structure OffSwitchClock (u v : State) : Prop where
  cfg_eq : v.cfg = u.cfg
  scheduler : sameScheduler u.st v.st
  log : LogGrows u v

theorem exec_offSwitchClock {i : Instr} (hi : i.isStimulus = true) (hReset : i ≠ .reset) (hStick : ∀ n, i ≠ .stick n)
    {s t : State} (ht : exec i s = .next t) : OffSwitchClock s t := by
  obtain ⟨hOwned, hCfg, -⟩ := exec_frame ht
  refine ⟨hCfg, ?_, exec_logGrows ht⟩
  cases i with
  | rise => obtain ⟨hSched, -⟩ := hOwned; exact hSched
  | fall => obtain ⟨hSched, -⟩ := hOwned; exact hSched
  | ctick n => obtain ⟨hSched, -⟩ := hOwned; exact hSched
  | mstep n => obtain ⟨-, hSched, -⟩ := hOwned; exact hSched
  | stick n => exact absurd rfl (hStick n)
  | reset => exact absurd rfl hReset
  | _ => cases hi

section
variable {P : Nat → State → Prop} (tick : ∀ k u v, u.Inv6 → P k u → stickOnce u = .next v → P (k + 1) v)
  (other : ∀ k u v, P k u → OffSwitchClock u v → P k v)
include tick other

theorem exec_carries_ticks {i : Instr} (hi : i.isStimulus = true) (hReset : i ≠ .reset) {k : Nat} {s t : State}
    (hInv : s.Inv6) (h : P k s) (ht : exec i s = .next t) : P (k + switchSteps i) t := by
  cases i with
  | stick n => exact repeatStep_stickOnce_carries tick hInv h (counted_eq_next.mp ht).2
  | _ => exact other k s t h (exec_offSwitchClock hi hReset nofun ht)

/-- What every tick carries from `k` ticks to `k + 1` and every other step leaves, a run carries by its ticks. -/
theorem execAll_carries_ticks {ops : List Instr} (hops : ∀ i ∈ ops, i.isStimulus = true ∧ i ≠ .reset) {k : Nat}
    {s t : State} (hInv : s.Inv6) (h : P k s) (ht : execAll ops s = .next t) :
    t.Inv6 ∧ P (k + (ops.map switchSteps).sum) t := by
  induction ops generalizing k s with
  | nil => cases ht; exact ⟨hInv, h⟩
  | cons i ops ih =>
    obtain ⟨⟨hi, hReset⟩, hRest⟩ := List.forall_mem_cons.mp hops
    obtain ⟨u, hu, hOps⟩ := andThen_eq_next.mp ht
    rw [List.map_cons, List.sum_cons, ← Nat.add_assoc]
    exact ih hRest ((exec_within_inv6 hi hInv).next hu) (exec_carries_ticks tick other hi hReset hInv h hu) hOps

end

/-! ## The period (R163) -/

/-- `u` is `k` ticks after `s`: one record a tick, and the counter modulo the period. -/
structure TicksAfter (s : State) (k : Nat) (u : State) : Prop where
  cfg_eq : u.cfg = s.cfg
  log_length : u.log.length = s.log.length + k
  sw_cnt : u.st.sw_cnt.toNat = (s.st.sw_cnt.toNat + k) % (s.cfg.SW_TOP + 1)

theorem TicksAfter.refl {s : State} (h : s.Inv6) : TicksAfter s 0 s := by
  obtain ⟨-, ⟨-, -, -, hLe⟩, -⟩ := h
  exact ⟨rfl, rfl, (Nat.mod_eq_of_lt (Nat.lt_succ_of_le hLe)).symm⟩

theorem stickOnce_sw_cnt {u v : State} (h : u.Inv6) (hv : stickOnce u = .next v) :
    v.cfg = u.cfg ∧ v.st.sw_cnt.toNat = (u.st.sw_cnt.toNat + 1) % (u.cfg.SW_TOP + 1) := by
  by_cases ht : u.st.sw_cnt.toNat = u.cfg.SW_TOP
  · obtain ⟨hCfg, hZero, -⟩ := stickOnce_at_top ht hv
    exact ⟨hCfg, by rw [hZero, ht, Nat.mod_self]⟩
  · obtain ⟨-, hLe⟩ := h.2.sw_cnt_succ h.1 ht
    obtain ⟨hCfg, hSucc, -⟩ := stickOnce_below_top h ht hv
    exact ⟨hCfg, by rw [hSucc, Nat.mod_eq_of_lt (Nat.lt_succ_of_le hLe)]⟩

theorem TicksAfter.tick {s : State} (k : Nat) (u v : State) (hInv : u.Inv6) (h : TicksAfter s k u)
    (hv : stickOnce u = .next v) : TicksAfter s (k + 1) v := by
  obtain ⟨hCfg, hLog, hCnt⟩ := h
  obtain ⟨hCfg', hCnt'⟩ := stickOnce_sw_cnt hInv hv
  obtain ⟨act, hLog'⟩ := stickOnce_recordsStep hv
  exact ⟨hCfg'.trans hCfg, by rw [hLog', List.length_cons, hLog]; rfl,
    by rw [hCnt', hCfg, hCnt, Nat.mod_add_mod, Nat.add_assoc]⟩

/-- The cells STICK does not own fix all but the scheduler's three. -/
theorem Cells.eq_of_stick_frame {a b : Cells} {n : Nat} (h : ownedUnchanged a b (.stick n)) :
    b = { a with sw_cnt := b.sw_cnt, thr := b.thr, hb := b.hb } := by
  obtain ⟨⟨hPhase, hCnt, hRun, hSample⟩, ⟨hMs, hPrev, hMev, hMpc, hInd⟩, ⟨hReady, hTmo⟩, hLvl⟩ := h
  cases b
  simp_all

/-- Settles O32: one tick counts modulo the period, and every state within clauses 1 to 6 goes on. -/
theorem switchingPeriod : Obligations.SwitchingPeriod := by
  intro s n h hn
  obtain ⟨t, ht, -⟩ := counted_completes (fun _ => stickOnce_of_inv6) hn h
  obtain ⟨hOwned, hCfg, hTrace⟩ := exec_frame (i := .stick n) ht
  have hEnd := repeatStep_stickOnce_carries TicksAfter.tick h (TicksAfter.refl h) (counted_eq_next.mp ht).2
  rw [Nat.zero_add] at hEnd
  exact ⟨t, ht, hCfg, hTrace, hEnd.log_length, hEnd.sw_cnt, Cells.eq_of_stick_frame hOwned⟩

/-! ## The rest of a period (R174) -/

/-- The scheduler's cells `b` are `k` ticks of one period after `a`: the count that meets `thr` has recharged. -/
structure LaterInPeriod (a : Cells) (k : Nat) (b : Cells) : Prop where
  sw_cnt : b.sw_cnt.toNat = a.sw_cnt.toNat + k
  thr : b.thr = a.thr
  hb : b.hb = if a.sw_cnt.toNat < a.thr.toNat ∧ a.thr.toNat ≤ a.sw_cnt.toNat + k then Hb.RCH else a.hb

theorem LaterInPeriod.refl (a : Cells) : LaterInPeriod a 0 a := ⟨rfl, rfl, (if_neg (by omega)).symm⟩

theorem LaterInPeriod.of_sameScheduler {a b c : Cells} {k : Nat} (h : LaterInPeriod a k b) (hbc : sameScheduler b c) :
    LaterInPeriod a k c := by
  obtain ⟨hCnt, hThr, hHb⟩ := hbc
  exact ⟨hCnt ▸ h.sw_cnt, hThr ▸ h.thr, hHb ▸ h.hb⟩

/-- A tick that counts stays in the period; the count `thr` is met at most once in it (R165). -/
theorem LaterInPeriod.tick {a : Cells} {k : Nat} {u v : State} (hInv : u.Inv6) (h : LaterInPeriod a k u.st)
    (ht : u.st.sw_cnt.toNat ≠ u.cfg.SW_TOP) (hv : stickOnce u = .next v) : LaterInPeriod a (k + 1) v.st := by
  obtain ⟨hCnt, hThr, hHb⟩ := h
  obtain ⟨-, hCnt', hThr', hHb'⟩ := stickOnce_below_top hInv ht hv
  refine ⟨by rw [hCnt', hCnt, Nat.add_assoc], hThr'.trans hThr, ?_⟩
  rw [hHb', hHb, hCnt, hThr]
  by_cases hm : a.sw_cnt.toNat + k + 1 = a.thr.toNat
  · rw [if_pos hm, if_pos (by omega)]
  · rw [if_neg hm]
    exact if_congr (by omega) rfl rfl

/-- `k` ticks after `s`: as long as they do not pass the top, they lie in one period. -/
structure UntilTop (s : State) (k : Nat) (u : State) : Prop where
  cfg_eq : u.cfg = s.cfg
  later : s.st.sw_cnt.toNat + k ≤ s.cfg.SW_TOP → LaterInPeriod s.st k u.st

theorem UntilTop.tick {s : State} (k : Nat) (u v : State) (hInv : u.Inv6) (h : UntilTop s k u)
    (hv : stickOnce u = .next v) : UntilTop s (k + 1) v := by
  obtain ⟨hCfg, hLater⟩ := h
  obtain ⟨hCfg', -⟩ := stickOnce_sw_cnt hInv hv
  refine ⟨hCfg'.trans hCfg, fun hk => ?_⟩
  have hNow := hLater (by omega)
  have hBelow : u.st.sw_cnt.toNat ≠ u.cfg.SW_TOP := by rw [hNow.sw_cnt, hCfg]; omega
  exact hNow.tick hInv hBelow hv

theorem UntilTop.offSwitchClock {s : State} (k : Nat) (u v : State) (h : UntilTop s k u) (huv : OffSwitchClock u v) :
    UntilTop s k v :=
  ⟨huv.cfg_eq.trans h.cfg_eq, fun hk => (h.later hk).of_sameScheduler huv.scheduler⟩

/-- Up to the count SW_TOP neither a speed nor another agent's step matters. -/
theorem execAll_laterInPeriod {ops : List Instr} (hops : ∀ i ∈ ops, i.isStimulus = true ∧ i ≠ .reset) {s t : State}
    (h : s.Inv6) (hle : s.st.sw_cnt.toNat + (ops.map switchSteps).sum ≤ s.cfg.SW_TOP)
    (ht : execAll ops s = .next t) : LaterInPeriod s.st (ops.map switchSteps).sum t.st := by
  obtain ⟨-, hEnd⟩ := execAll_carries_ticks UntilTop.tick UntilTop.offSwitchClock hops h
    ⟨rfl, fun _ => LaterInPeriod.refl s.st⟩ ht
  rw [Nat.zero_add] at hEnd
  exact hEnd.later hle

theorem exec_stick_laterInPeriod {s : State} {n : Nat} (h : s.Inv6) (hn : 1 ≤ n)
    (hle : s.st.sw_cnt.toNat + n ≤ s.cfg.SW_TOP) :
    ∃ t, exec (.stick n) s = .next t ∧ LaterInPeriod s.st n t.st := by
  obtain ⟨t, ht, -⟩ := counted_completes (fun _ => stickOnce_of_inv6) hn h
  refine ⟨t, ht, execAll_laterInPeriod (ops := [.stick n]) (by simp [Instr.isStimulus]) h hle ?_⟩
  rwa [execAll_singleton]

/-- Settles O36: the rest of a period is a function of the scheduler's cells alone. -/
theorem speedIsLatched : Obligations.SpeedIsLatched := by
  intro s s' n h h' hCfg ⟨hCnt, hThr, hHb⟩ hn hle
  obtain ⟨t, ht, hLater⟩ := exec_stick_laterInPeriod h hn hle
  obtain ⟨t', ht', hLater'⟩ := exec_stick_laterInPeriod h' hn (hCnt ▸ hCfg ▸ hle)
  refine ⟨t, t', ht, ht', ⟨BitVec.eq_of_toNat_eq ?_, ?_, ?_⟩, hLater.thr⟩
  · rw [hLater.sw_cnt, hLater'.sw_cnt, hCnt]
  · rw [hLater.thr, hLater'.thr, hThr]
  · rw [hLater.hb, hLater'.hb, hCnt, hThr, hHb]

/-! ## A whole period (R169) -/

/-- Just before CMPA the output recharges: no threshold lies above the top (R170, R171). -/
theorem State.Inv6.hb_at_top {s : State} (h : s.Inv6) (ht : s.st.sw_cnt.toNat = s.cfg.SW_TOP) : s.st.hb = Hb.RCH := by
  obtain ⟨hv, ⟨-, -, hThr, -⟩, -, -, -, -, hRch, -⟩ := h
  obtain ⟨-, -, hTop, -⟩ := timers_fit_of_validConfig hv
  exact hRch (by omega)

/-- The scheduler's cells at the count `k` of a period that CMPA started with the speed `v`. -/
structure AtCount (v : Int) (k : Nat) (c : Cells) : Prop where
  sw_cnt : c.sw_cnt.toNat = k
  thr : c.thr.toNat = v.natAbs
  hb : c.hb = if k < v.natAbs then (if 0 < v then Hb.FWD else Hb.BWD) else Hb.RCH

/-- CMPA is at the count 0 of its period. -/
theorem atCount_of_top {u v : State} (h : u.Inv6) (ht : u.st.sw_cnt.toNat = u.cfg.SW_TOP)
    (hv : stickOnce u = .next v) : AtCount u.st.ms.toInt 0 v.st := by
  obtain ⟨-, hCnt, hThr, hHb⟩ := stickOnce_at_top ht hv
  refine ⟨hCnt, hThr, ?_⟩
  rw [hHb, h.hb_at_top ht]
  rcases lt_trichotomy u.st.ms.toInt 0 with hn | hz | hp
  · rw [if_neg hn.not_gt, if_pos hn, if_pos (by omega), if_neg hn.not_gt]
  · simp [hz]
  · rw [if_pos hp, if_pos (by omega), if_pos hp]

theorem AtCount.later {v : Int} {a b : Cells} {k : Nat} (h : AtCount v 0 a) (hab : LaterInPeriod a k b) :
    AtCount v k b := by
  obtain ⟨hCnt, hThr, hHb⟩ := h
  refine ⟨by rw [hab.sw_cnt, hCnt, Nat.zero_add], by rw [hab.thr, hThr], ?_⟩
  rw [hab.hb, hCnt, hThr, Nat.zero_add, hHb]
  by_cases hk : k < v.natAbs
  · rw [if_pos hk, if_neg (by omega), if_pos (by omega)]
  · rw [if_neg hk]
    by_cases hz : 0 < v.natAbs
    · rw [if_pos (by omega)]
    · rw [if_neg (by omega), if_neg hz]

/-- A run that starts with CMPA's tick and takes `k` more, up to the top, is at the count `k` of that period. -/
theorem execAll_atCount {s t : State} {ops : List Instr} (h : s.Inv6) (hTop : s.st.sw_cnt.toNat = s.cfg.SW_TOP)
    (hops : ∀ i ∈ ops, i.isStimulus = true ∧ i ≠ .reset) (hle : (ops.map switchSteps).sum ≤ s.cfg.SW_TOP)
    (ht : execAll (.stick 1 :: ops) s = .next t) : AtCount s.st.ms.toInt (ops.map switchSteps).sum t.st := by
  obtain ⟨u, hu, hRest⟩ := andThen_eq_next.mp ht
  have hOne : stickOnce s = .next u := (counted_one stickOnce s).symm.trans hu
  obtain ⟨hCfg, hZero, -⟩ := stickOnce_at_top hTop hOne
  refine (atCount_of_top h hTop hOne).later (execAll_laterInPeriod hops (stickOnce_keeps_inv6 h hOne) ?_ hRest)
  rwa [hZero, hCfg, Nat.zero_add]

/-- The switching clock alone gets to every count of the period. -/
theorem exec_stick_atCount {s : State} {k : Nat} (h : s.Inv6) (hTop : s.st.sw_cnt.toNat = s.cfg.SW_TOP)
    (hk : k ≤ s.cfg.SW_TOP) : ∃ t, exec (.stick (k + 1)) s = .next t ∧ AtCount s.st.ms.toInt k t.st := by
  obtain ⟨t, ht, -⟩ := counted_completes (fun _ => stickOnce_of_inv6) k.succ_pos h
  have hExec : exec (.stick (k + 1)) s = .next t := ht
  have hSum : ((List.replicate k (Instr.stick 1)).map switchSteps).sum = k := by simp [switchSteps]
  have hEnd := execAll_atCount (ops := List.replicate k (.stick 1)) (t := t) h hTop
    (fun i hi => List.eq_of_mem_replicate hi ▸ ⟨rfl, nofun⟩) (hSum.le.trans hk)
    ((exec_eq_execAll_replicate isCountOp_stick k.succ_pos s).symm.trans hExec)
  exact ⟨t, hExec, hSum ▸ hEnd⟩

/-- Settles O33: the speed CMPA reads is at most the top, and it fixes the cells at each count of its period. -/
theorem driveThenRecharge : Obligations.DriveThenRecharge := by
  intro s k h hTop hk
  refine ⟨?_, ?_, fun ops t hops hSum ht => ?_⟩
  · obtain ⟨hv, ⟨hMs, -⟩, -⟩ := h
    obtain ⟨-, -, hLe, -⟩ := timers_fit_of_validConfig hv
    omega
  · obtain ⟨t, ht, hCnt, hThr, hHb⟩ := exec_stick_atCount h hTop hk
    exact ⟨t, ht, hCnt, hThr, hHb⟩
  · obtain ⟨hCnt, hThr, hHb⟩ :=
      execAll_atCount h hTop (fun i hi => (hops i hi).2) (hSum.le.trans hk) ht
    rw [hSum] at hCnt hHb
    exact ⟨hCnt, hThr, hHb⟩

/-- Settles O37: the period of speed 0 has no count below its threshold 0. -/
theorem neutralPeriod : Obligations.NeutralPeriod := by
  intro s k h hTop hMs hk
  obtain ⟨t, ht, -, hThr, hHb⟩ := exec_stick_atCount h hTop hk
  have hZero : s.st.ms.toInt.natAbs = 0 := by rw [hMs]; rfl
  rw [hZero, if_neg k.not_lt_zero] at hHb
  rw [hZero] at hThr
  obtain ⟨-, -, hNeutral, -⟩ := bridgeStates t.st
  exact ⟨t, ht, hHb, hNeutral (hHb ▸ Hb.RCH_ne_FWD) (hHb ▸ Hb.RCH_ne_BWD) (BitVec.eq_of_toNat_eq hThr)⟩

end Sys2Proof.Machine
end

section
/-! Proofs: the recharge pattern stands in the records of every period, under every interleaving
(spec/42_switching_scheduler.md R170, R171). -/

namespace Sys2Proof.Machine

/-- Among the records written since `s` there is one of a switching tick that left the recharge pattern. -/
def RechargedSince (s t : State) : Prop :=
  ∃ new, t.log = new ++ s.log ∧ ∃ r ∈ new, r.stim = 0x4001#16 ∧ r.hb = Hb.RCH

theorem RechargedSince.mono {s u v : State} (h : RechargedSince s u) (huv : LogGrows u v) : RechargedSince s v := by
  obtain ⟨new, hLog, r, hr, hRch⟩ := h
  obtain ⟨later, hLater⟩ := huv
  exact ⟨later ++ new, by rw [← hLater, hLog, List.append_assoc], r, List.mem_append_right later hr, hRch⟩

theorem rechargedSince_of_tick {s u v : State} (hsu : LogGrows s u) (hv : stickOnce u = .next v)
    (hRch : v.st.hb = Hb.RCH) : RechargedSince s v := by
  obtain ⟨new, hNew⟩ := hsu
  obtain ⟨act, hLog⟩ := stickOnce_recordsStep hv
  exact ⟨_ :: new, by rw [hLog, ← hNew]; rfl, _, List.mem_cons_self, rfl, hRch⟩

/-- The ticks to the next arrival at the top count, a whole period from the top itself (R163). -/
def State.ticksToTop (s : State) : Nat :=
  if s.st.sw_cnt.toNat = s.cfg.SW_TOP then s.cfg.SW_TOP + 1 else s.cfg.SW_TOP - s.st.sw_cnt.toNat

theorem State.ticksToTop_le (s : State) : s.ticksToTop ≤ s.cfg.SW_TOP + 1 := by
  unfold State.ticksToTop
  split_ifs <;> omega

theorem State.Inv6.ticksToTop_pos {s : State} (h : s.Inv6) : 0 < s.ticksToTop := by
  obtain ⟨-, ⟨-, -, -, hLe⟩, -⟩ := h
  unfold State.ticksToTop
  split_ifs <;> omega

theorem OffSwitchClock.ticksToTop_eq {u v : State} (h : OffSwitchClock u v) : v.ticksToTop = u.ticksToTop := by
  obtain ⟨hCfg, ⟨hCnt, -⟩, -⟩ := h
  simp only [State.ticksToTop, hCfg, hCnt]

/-- A tick arrives at the top, where the output recharges, or comes one tick closer. -/
theorem stickOnce_recharges_or_closer {u v : State} (h : u.Inv6) (hv : stickOnce u = .next v) :
    v.st.hb = Hb.RCH ∨ v.ticksToTop + 1 = u.ticksToTop := by
  obtain ⟨hCfg, -⟩ := stickOnce_sw_cnt h hv
  by_cases hArrived : v.st.sw_cnt.toNat = v.cfg.SW_TOP
  · exact .inl ((stickOnce_keeps_inv6 h hv).hb_at_top hArrived)
  · refine .inr ?_
    rw [State.ticksToTop, State.ticksToTop, if_neg hArrived, hCfg]
    by_cases ht : u.st.sw_cnt.toNat = u.cfg.SW_TOP
    · obtain ⟨-, hZero, -⟩ := stickOnce_at_top ht hv
      rw [if_pos ht, hZero, Nat.sub_zero]
    · obtain ⟨-, hSucc, -⟩ := stickOnce_below_top h ht hv
      obtain ⟨-, hLe⟩ := h.2.sw_cnt_succ h.1 ht
      rw [hCfg, hSucc] at hArrived
      rw [if_neg ht, hSucc]
      omega

/-- `k` ticks after `s`, the output has recharged or the top is `k` ticks closer. -/
structure RechargeDue (s : State) (k : Nat) (u : State) : Prop where
  log : LogGrows s u
  due : RechargedSince s u ∨ u.ticksToTop + k = s.ticksToTop

theorem RechargeDue.tick {s : State} (k : Nat) (u v : State) (hInv : u.Inv6) (h : RechargeDue s k u)
    (hv : stickOnce u = .next v) : RechargeDue s (k + 1) v := by
  obtain ⟨hLog, hDue⟩ := h
  have hGrows := stickOnce_logGrows hv
  refine ⟨hLog.trans hGrows, ?_⟩
  rcases hDue with hDone | hDue
  · exact .inl (hDone.mono hGrows)
  · rcases stickOnce_recharges_or_closer hInv hv with hRch | hCloser
    · exact .inl (rechargedSince_of_tick hLog hv hRch)
    · exact .inr (by omega)

theorem RechargeDue.offSwitchClock {s : State} (k : Nat) (u v : State) (h : RechargeDue s k u)
    (huv : OffSwitchClock u v) : RechargeDue s k v := by
  obtain ⟨hLog, hDue⟩ := h
  rw [← huv.ticksToTop_eq] at hDue
  exact ⟨hLog.trans huv.log, hDue.imp_left (·.mono huv.log)⟩

/-- Settles O34: a period's ticks bring the counter to the top, where the output recharges. -/
theorem rechargeEveryPeriod : Obligations.RechargeEveryPeriod := by
  refine ⟨fun _ => State.Inv6.hb_at_top, fun s t ops h hops hPeriod ht => ?_⟩
  obtain ⟨hInv, -, hDone | hDue⟩ := execAll_carries_ticks RechargeDue.tick RechargeDue.offSwitchClock hops h
    ⟨LogGrows.refl s, .inr (Nat.add_zero _)⟩ ht
  · exact hDone
  · have hLe := s.ticksToTop_le
    have hPos : 0 < t.ticksToTop := hInv.ticksToTop_pos
    omega

end Sys2Proof.Machine
end

section
/-! Proofs: the patterns on the output and their changes, at every atomic step (spec/42_switching_scheduler.md R172,
R173). -/

namespace Sys2Proof.Machine

theorem safePattern_iff {p : BitVec 4} : safePattern p = true ↔ p = Hb.FWD ∨ p = Hb.BWD ∨ p = Hb.RCH := by
  simp [safePattern, or_assoc]

/-- Clause 2 keeps the output safe (R42). -/
theorem State.Inv6.safePattern_hb {s : State} (h : s.Inv6) : safePattern s.st.hb = true := by
  obtain ⟨-, -, ⟨hHb, -⟩, -⟩ := h
  exact safePattern_iff.mpr hHb

/-! ## The changes of R173 -/

theorem allowedChange_self (p : BitVec 4) : allowedChange p p = true := by simp [allowedChange]

theorem allowedChange_from_rch {p : BitVec 4} (h : safePattern p = true) : allowedChange Hb.RCH p = true := by
  rcases safePattern_iff.mp h with rfl | rfl | rfl <;> rfl

theorem allowedChange_to_rch {p : BitVec 4} (h : safePattern p = true) : allowedChange p Hb.RCH = true := by
  rcases safePattern_iff.mp h with rfl | rfl | rfl <;> rfl

/-- CMPA starts from RCH and CMPB ends in it; a tick that runs neither leaves the pattern (R164, R165). -/
theorem stickOnce_allowedChange {u v : State} (h : u.Inv6) (hv : stickOnce u = .next v) :
    allowedChange u.st.hb v.st.hb = true := by
  by_cases ht : u.st.sw_cnt.toNat = u.cfg.SW_TOP
  · rw [h.hb_at_top ht]
    exact allowedChange_from_rch (stickOnce_keeps_inv6 h hv).safePattern_hb
  · obtain ⟨-, -, -, hHb⟩ := stickOnce_below_top h ht hv
    rw [hHb]
    split_ifs
    · exact allowedChange_to_rch h.safePattern_hb
    · exact allowedChange_self _

theorem exec_singleOf_allowedChange {i : Instr} (hi : i.isStimulus = true) {s t : State} (h : s.Inv6)
    (ht : exec (singleOf i) s = .next t) : allowedChange s.st.hb t.st.hb = true := by
  cases i with
  | stick n => exact stickOnce_allowedChange h ((counted_one stickOnce s).symm.trans ht)
  | reset => cases ht; exact allowedChange_to_rch h.safePattern_hb
  | _ =>
    obtain ⟨-, -, hHb⟩ := (exec_offSwitchClock (singleOf_isStimulus hi) nofun nofun ht).scheduler
    rw [hHb]
    exact allowedChange_self _

/-! ## The patterns of a step -/

/-- The patterns on the output since `s`, newest first: the present one heads them, all are safe and every change is
allowed. -/
structure PatternsSince (s t : State) (new : List StepRecord) (older : List (BitVec 4)) : Prop where
  log : t.log = new ++ s.log
  patterns : new.map StepRecord.hb ++ [s.st.hb] = t.st.hb :: older
  safe : (t.st.hb :: older).all safePattern = true
  changes : allowedChanges (t.st.hb :: older) = true

theorem PatternsSince.refl {s : State} (h : s.Inv6) : PatternsSince s s [] [] :=
  ⟨rfl, rfl, by simp [h.safePattern_hb], rfl⟩

theorem allowedChanges_cons {p q : BitVec 4} {older : List (BitVec 4)} (hq : allowedChange q p = true)
    (h : allowedChanges (q :: older) = true) : allowedChanges (p :: q :: older) = true := by
  rw [allowedChanges, hq, h]
  rfl

/-- An atomic step adds its one pattern. -/
theorem PatternsSince.single {s u v : State} {new : List StepRecord} {older : List (BitVec 4)}
    (h : PatternsSince s u new older) {i : Instr} (hi : i.isStimulus = true) (hu : u.Inv6)
    (hv : exec (singleOf i) u = .next v) : ∃ r, PatternsSince s v (r :: new) (u.st.hb :: older) := by
  obtain ⟨hLog, hPatterns, hSafe, hChanges⟩ := h
  obtain ⟨act, hRecord⟩ := exec_singleOf_recordsStep hi hv
  have hNew : safePattern v.st.hb = true :=
    ((exec_within_inv6 (singleOf_isStimulus hi) hu).next hv).safePattern_hb
  refine ⟨_, by rw [hRecord, hLog]; rfl, by rw [List.map_cons, List.cons_append, hPatterns], ?_,
    allowedChanges_cons (exec_singleOf_allowedChange hi hu hv) hChanges⟩
  rw [List.all_cons, hNew, hSafe]
  rfl

theorem exec_patternsSince {i : Instr} (hi : i.isStimulus = true) {s t : State} (h : s.Inv6)
    (ht : exec i s = .next t) : ∃ new older, PatternsSince s t new older := by
  obtain ⟨-, hEnd⟩ := exec_keeps_of_singleOf (P := fun u => u.Inv6 ∧ ∃ new older, PatternsSince s u new older)
    (fun u v ⟨hu, new, older, hTrail⟩ hv => by
      obtain ⟨r, hNext⟩ := hTrail.single hi hu hv
      exact ⟨(exec_within_inv6 (singleOf_isStimulus hi) hu).next hv, _, _, hNext⟩)
    ⟨h, _, _, PatternsSince.refl h⟩ ht
  exact hEnd

/-- Settles O40: a word's atomic steps change the pattern as R173 lists, one record each. -/
theorem outputPatternsStaySafe : Obligations.OutputPatternsStaySafe := by
  intro s t h ht
  obtain ⟨w, rest, i, -, hw, hExec⟩ := step_eq_next ht
  obtain ⟨new, older, hLog, hPatterns, hSafe, hChanges⟩ :=
    exec_patternsSince (decode_isStimulus hw) (s := { s with trace := rest }) h hExec
  refine ⟨new, hLog, ?_, ?_⟩
  · rw [hPatterns]
    simpa using hSafe
  · rw [hPatterns]
    exact allowedChanges_cons (allowedChange_self _) hChanges

end Sys2Proof.Machine
end

section
/-! Proofs: the indicator's function by signs, and MIND by itself and inside MSTEP (spec/43_direction_indicator.md R191
to R193, R195). -/

namespace Sys2Proof.Machine

/-! ## The function of R191: one transition for each sign of the new speed, as R191 notes -/

theorem indicate_of_new_neg {prev new : Int} (h : new < 0) (cur : BitVec 2) :
    indicate prev new cur = if 0 ≤ prev then Ind.BWD else cur := by simp [indicate, h, h.not_gt, h.ne]

theorem indicate_of_new_zero (prev : Int) (cur : BitVec 2) :
    indicate prev 0 cur = if prev ≠ 0 then Ind.NEU else cur := by simp [indicate]

theorem indicate_of_new_pos {prev new : Int} (h : 0 < new) (cur : BitVec 2) :
    indicate prev new cur = if prev ≤ 0 then Ind.FWD else cur := by simp [indicate, h, h.not_gt, h.ne']

/-- Every comparison of R191 is with 0, so a speed's sign answers it as the speed does. -/
theorem indicate_sign_sign (prev new : Int) (cur : BitVec 2) :
    indicate prev.sign new.sign cur = indicate prev new cur := by
  simp only [indicate, Int.sign_nonpos_iff, Int.sign_pos_iff, Int.sign_nonneg_iff, Int.sign_neg_iff, ne_eq,
    Int.sign_eq_zero_iff_zero]

theorem indicate_congr_sign {prev prev' new new' : Int} (hp : prev.sign = prev'.sign) (hn : new.sign = new'.sign)
    (cur : BitVec 2) : indicate prev new cur = indicate prev' new' cur := by
  rw [← indicate_sign_sign prev, hp, hn, indicate_sign_sign]

/-- Settles O41: each row is the transition of its new sign, taken or not by the old one. -/
theorem indicatorTable : Obligations.IndicatorTable := by
  intro prev new cur
  refine ⟨fun hp hn => ?_, fun hp hn => ?_, fun hp hn => ?_, fun hp hn => ?_, fun hp hn => ?_, fun hp hn => ?_,
    fun hp hn => ?_, fun hp hn => ?_, fun hp hn => ?_, fun _ _ hp hn => indicate_congr_sign hp hn cur⟩
  · exact (indicate_of_new_neg hn cur).trans (if_neg hp.not_ge)
  · exact hn ▸ (indicate_of_new_zero prev cur).trans (if_pos hp.ne)
  · exact (indicate_of_new_pos hn cur).trans (if_pos hp.le)
  · exact (indicate_of_new_neg hn cur).trans (if_pos hp.ge)
  · exact hn ▸ (indicate_of_new_zero prev cur).trans (if_neg (not_not_intro hp))
  · exact (indicate_of_new_pos hn cur).trans (if_pos hp.le)
  · exact (indicate_of_new_neg hn cur).trans (if_pos hp.le)
  · exact hn ▸ (indicate_of_new_zero prev cur).trans (if_pos hp.ne')
  · exact (indicate_of_new_pos hn cur).trans (if_neg hp.not_ge)

/-! ## MIND -/

/-- A sub-action that MSTEP runs at `s` ends in the step's record (R89). -/
theorem exec_mstep_one_of_service {act : Instr} {handler : State → Result} {s t : State}
    (hs : mstepOnce s = service (.mstep 1) act handler s) (ht : handler s = .next t) :
    exec (.mstep 1) s = .next (commit (.mstep 1) (some act) t) := by
  calc exec (.mstep 1) s
    _ = mstepOnce s := counted_one mstepOnce s
    _ = .next (commit (.mstep 1) (some act) t) := hs.trans (service_eq_next.mpr ⟨t, ht, rfl⟩)

/-- Settles O42: the codings by evaluation, MIND's place in MSTEP at IND, and its writes. -/
theorem indicatorStep : Obligations.IndicatorStep :=
  ⟨by decide, fun _ hp _ ht => exec_mstep_one_of_service (mstepOnce_of_ind hp) ht, execMind_eq⟩

end Sys2Proof.Machine
end

section
/-! Proofs: one main-loop step by the sequencer's position, any number of them, and one event processed whole
(spec/44_control_loop.md R201 to R205, R207, R209). -/

namespace Sys2Proof.Machine

theorem decode_mstep {n : Nat} (hn : 1 ≤ n) (hn' : n ≤ 4095) :
    decode (BitVec.ofNat 16 (0x5000 + n)) = .stim (.mstep n) :=
  wordOf_of_lt (op := 0x5) (Nat.lt_succ_of_le hn') ▸ decode_encode (i := .mstep n) rfl (countFits_iff.mpr ⟨hn, hn'⟩)

theorem Cells.eventPending_eq_true {c : Cells} : c.eventPending = true ↔ c.ready = true ∨ c.tmo = true := by
  simp [Cells.eventPending]

theorem Cells.eventPending_eq_false {c : Cells} : c.eventPending = false ↔ c.ready = false ∧ c.tmo = false := by
  simp [Cells.eventPending]

/-! ## One single step -/

theorem mstepOnce_eq_exec (s : State) : mstepOnce s = exec (.mstep 1) s := (counted_one mstepOnce s).symm

theorem exec_mstep_one_of_pending {s t : State} (hp : s.st.mpc = Mpc.POLL) (he : s.st.ready = true ∨ s.st.tmo = true)
    (ht : exec .mtake s = .next t) : exec (.mstep 1) s = .next (commit (.mstep 1) (some .mtake) t) :=
  exec_mstep_one_of_service (mstepOnce_of_poll hp (Cells.eventPending_eq_true.mpr he)) ht

theorem exec_mstep_one_of_speed {s t : State} (hp : s.st.mpc = Mpc.SPEED) (ht : exec .mspd s = .next t) :
    exec (.mstep 1) s = .next (commit (.mstep 1) (some .mspd) t) :=
  exec_mstep_one_of_service (mstepOnce_of_speed hp) ht

theorem exec_mstep_one_of_ind {s t : State} (hp : s.st.mpc = Mpc.IND) (ht : exec .mind s = .next t) :
    exec (.mstep 1) s = .next (commit (.mstep 1) (some .mind) t) :=
  exec_mstep_one_of_service (mstepOnce_of_ind hp) ht

theorem exec_mstep_of_inv6 {s : State} (h : s.Inv6) {n : Nat} (hn : 1 ≤ n) : ∃ t, exec (.mstep n) s = .next t := by
  obtain ⟨t, ht, -⟩ := counted_completes (fun _ => mstepOnce_of_inv6) hn h
  exact ⟨t, ht⟩

/-- Settles O43: the coding, MTAKE's place in MSTEP at POLL, and its two cases. -/
theorem takeEvent : Obligations.TakeEvent :=
  ⟨by decide, fun _ hp he _ => exec_mstep_one_of_pending hp he,
    fun _ => ⟨fun _ => execMtake_of_sample, execMtake_of_timeout⟩⟩

/-- Settles O44: the coding, MSPD's place in MSTEP at SPEED, and its two cases. -/
theorem publishSpeed : Obligations.PublishSpeed :=
  ⟨by decide, fun _ hp _ => exec_mstep_one_of_speed hp, fun _ => ⟨fun _ => execMspd_of_event, execMspd_of_event⟩⟩

/-- Settles O46: the coding, the count by R86, the equation of one step at each position, and its completion. -/
theorem mainLoopStep : Obligations.MainLoopStep := by
  refine ⟨fun n hn hn' => ⟨decode_mstep hn hn', fun _ => exec_eq_execAll_replicate isCountOp_mstep hn _⟩, fun s =>
    ⟨fun hp he _ => exec_mstep_one_of_pending hp he, fun hp hr ht => ?_, fun hp _ => exec_mstep_one_of_speed hp,
      fun hp _ => exec_mstep_one_of_ind hp, fun h => exec_mstep_of_inv6 h le_rfl⟩⟩
  exact (counted_one mstepOnce s).trans (mstepOnce_of_spin hp (Cells.eventPending_eq_false.mpr ⟨hr, ht⟩))

/-! ## Any number of steps -/

theorem repeatStep_mstepOnce_log_length {n : Nat} {s t : State} (ht : repeatStep mstepOnce n s = .next t) :
    t.log.length = s.log.length + n := by
  induction n generalizing s with
  | zero => cases ht; rfl
  | succ n ih =>
    obtain ⟨u, hu, hRest⟩ := andThen_eq_next.mp ht
    obtain ⟨act, hLog⟩ := mstepOnce_recordsStep hu
    rw [ih hRest, hLog, List.length_cons, Nat.add_right_comm, Nat.add_assoc]

/-- Settles O47: every count completes, with one record a step and MSTEP's frame. -/
theorem mainLoopNeverBlocks : Obligations.MainLoopNeverBlocks := by
  intro s n h hn
  obtain ⟨t, ht⟩ := exec_mstep_of_inv6 h hn
  obtain ⟨⟨hDec, hSched, hLvl⟩, hCfg, hTrace⟩ := exec_frame ht
  exact ⟨t, ht, hCfg, hTrace, repeatStep_mstepOnce_log_length (counted_eq_next.mp ht).2, hDec, hSched, hLvl.symm⟩

theorem repeatStep_mstepOnce_of_idle {s : State} (hp : s.st.mpc = Mpc.POLL) (he : s.st.eventPending = false) (n : Nat) :
    repeatStep mstepOnce n s =
      .next { s with log := List.replicate n ⟨0x5001#16, none, s.st.hb, s.st.ind⟩ ++ s.log } := by
  induction n generalizing s with
  | zero => rfl
  | succ n ih =>
    rw [repeatStep_succ, mstepOnce_of_spin hp he, andThen_next, ih (s := commit (.mstep 1) none s) hp he,
      List.replicate_succ', List.append_assoc]
    rfl

/-- Settles O48: each step is a spin, and the loop is idle after it as before. -/
theorem spinChangesNothing : Obligations.SpinChangesNothing := by
  intro s n hp hr ht hn
  exact (counted_pos mstepOnce hn s).trans
    (repeatStep_mstepOnce_of_idle hp (Cells.eventPending_eq_false.mpr ⟨hr, ht⟩) n)

/-! ## One event -/

/-- From SPEED two steps finish the event in hand: MSPD and MIND (R205). -/
theorem repeatStep_mstepOnce_finishes {s : State} {e : Event} (hp : s.st.mpc = Mpc.SPEED) (he : s.st.mev = some e) :
    ∃ t, repeatStep mstepOnce 2 s = .next t ∧ t.cfg = s.cfg ∧
      t.st = (s.st.publish (eventSpeed s.cfg e)).showDirection := by
  have hSpeed : mstepOnce s =
      .next (commit (.mstep 1) (some .mspd) (s.withSt (s.st.publish (eventSpeed s.cfg e)))) :=
    (mstepOnce_eq_exec s).trans (exec_mstep_one_of_speed hp (execMspd_of_event he))
  have hInd {u : State} (hu : u.st.mpc = Mpc.IND) :
      repeatStep mstepOnce 1 u = .next (commit (.mstep 1) (some .mind) (u.withSt u.st.showDirection)) :=
    (repeatStep_one mstepOnce u).trans ((mstepOnce_eq_exec u).trans (exec_mstep_one_of_ind hu (execMind_eq u)))
  exact ⟨_, andThen_eq_next.mpr ⟨_, hSpeed, hInd rfl⟩, rfl, rfl⟩

/-- MTAKE, MSPD and MIND process the event `e` that MTAKE hands over in the cells `c`. -/
theorem repeatStep_mstepOnce_event {s : State} {c : Cells} {e : Event} (hp : s.st.mpc = Mpc.POLL)
    (hPending : s.st.ready = true ∨ s.st.tmo = true) (hTake : execMtake s = .next (s.withSt c))
    (hSpeed : c.mpc = Mpc.SPEED) (hMev : c.mev = some e) :
    ∃ t, repeatStep mstepOnce 3 s = .next t ∧ t.cfg = s.cfg ∧
      t.st = (c.publish (eventSpeed s.cfg e)).showDirection := by
  have hFirst : mstepOnce s = .next (commit (.mstep 1) (some .mtake) (s.withSt c)) :=
    (mstepOnce_eq_exec s).trans (exec_mstep_one_of_pending hp hPending hTake)
  obtain ⟨t, ht, hEnd⟩ :=
    repeatStep_mstepOnce_finishes (s := commit (.mstep 1) (some .mtake) (s.withSt c)) hSpeed hMev
  exact ⟨t, andThen_eq_next.mpr ⟨_, hFirst, ht⟩, hEnd⟩

theorem repeatStep_mstepOnce_sample {s : State} {w : CapTicks} (hp : s.st.mpc = Mpc.POLL) (hr : s.st.ready = true)
    (hw : s.st.sample = some w) :
    ∃ t, repeatStep mstepOnce 3 s = .next t ∧ t.cfg = s.cfg ∧
      t.st = ((s.st.takeSample w).publish (translate s.cfg w)).showDirection :=
  repeatStep_mstepOnce_event hp (.inl hr) (execMtake_of_sample hr hw) rfl rfl

theorem repeatStep_mstepOnce_timeout {s : State} (hp : s.st.mpc = Mpc.POLL) (hr : s.st.ready = false)
    (ht : s.st.tmo = true) :
    ∃ t, repeatStep mstepOnce 3 s = .next t ∧ t.cfg = s.cfg ∧
      t.st = (s.st.takeTimeout.publish 0#8).showDirection :=
  repeatStep_mstepOnce_event hp (.inr ht) (execMtake_of_timeout hr ht) rfl rfl

/-- Settles O49: the three sub-actions' writes, one after another. -/
theorem eventTakesThreeSteps : Obligations.EventTakesThreeSteps := by
  refine fun s hp => ⟨fun w hr hw => ?_, fun hr ht => ?_⟩
  · obtain ⟨t, hExec, -, hSt⟩ := repeatStep_mstepOnce_sample hp hr hw
    exact ⟨t, hExec, hSt⟩
  · obtain ⟨t, hExec, -, hSt⟩ := repeatStep_mstepOnce_timeout hp hr ht
    exact ⟨t, hExec, hSt⟩

end Sys2Proof.Machine
end

section
/-! Proofs: from a timeout to speed 0 and a neutral indicator, under every interleaving with no captured edge
(spec/44_control_loop.md R206, R210, spec/70_reset_and_hazards.md R279). -/

namespace Sys2Proof.Machine

/-! ## The work left to the main loop -/

/-- The main-loop steps that finish the event in hand: MSPD and MIND, or MIND alone. -/
def Cells.stepsToPoll (c : Cells) : Nat :=
  if c.mpc = Mpc.POLL then 0 else if c.mpc = Mpc.SPEED then 2 else 1

/-- The main-loop steps to the first spin when no new event comes: three for each pending event (R207). -/
def Cells.stepsToIdle (c : Cells) : Nat :=
  c.stepsToPoll + 3 * c.ready.toNat + 3 * c.tmo.toNat

section
variable {c : Cells}

theorem Cells.stepsToPoll_of_poll (h : c.mpc = Mpc.POLL) : c.stepsToPoll = 0 := if_pos h

theorem Cells.stepsToPoll_of_speed (h : c.mpc = Mpc.SPEED) : c.stepsToPoll = 2 := by simp [Cells.stepsToPoll, h]

theorem Cells.stepsToPoll_of_ind (h : c.mpc = Mpc.IND) : c.stepsToPoll = 1 := by simp [Cells.stepsToPoll, h]

@[simp] theorem Cells.takeSample_stepsToPoll (c : Cells) (w : CapTicks) : (c.takeSample w).stepsToPoll = 2 := rfl

@[simp] theorem Cells.takeTimeout_stepsToPoll (c : Cells) : c.takeTimeout.stepsToPoll = 2 := rfl

@[simp] theorem Cells.publish_stepsToPoll (c : Cells) (v : Speed) : (c.publish v).stepsToPoll = 1 := rfl

@[simp] theorem Cells.showDirection_stepsToPoll (c : Cells) : c.showDirection.stepsToPoll = 0 := rfl

theorem Cells.stepsToPoll_le (c : Cells) : c.stepsToPoll ≤ 2 := by
  unfold Cells.stepsToPoll
  split_ifs <;> decide

/-- R210's worst case: two steps for the event in hand, three for the sample, three for the timeout. -/
theorem Cells.stepsToIdle_le (c : Cells) : c.stepsToIdle ≤ 8 := by
  have := c.stepsToPoll_le
  have := c.ready.toNat_le
  have := c.tmo.toNat_le
  unfold Cells.stepsToIdle
  omega

theorem Cells.tmo_of_stepsToIdle_le_one (h : c.stepsToIdle ≤ 1) : c.tmo = false := by
  unfold Cells.stepsToIdle at h
  exact Bool.toNat_eq_zero.mp (by omega)

theorem Cells.mpc_of_stepsToIdle_le_one (h : c.stepsToIdle ≤ 1) : c.mpc ≠ Mpc.SPEED := by
  intro hp
  rw [Cells.stepsToIdle, Cells.stepsToPoll_of_speed hp] at h
  omega

theorem Cells.mpc_of_stepsToIdle_eq_zero (h : c.stepsToIdle = 0) : c.mpc ≠ Mpc.IND := by
  intro hp
  rw [Cells.stepsToIdle, Cells.stepsToPoll_of_ind hp] at h
  omega

end

/-- Each main-loop step does one step of the work, and a spin finds none. -/
theorem mstepOnce_stepsToIdle {s t : State} (ht : mstepOnce s = .next t) :
    t.st.stepsToIdle = s.st.stepsToIdle - 1 := by
  obtain ⟨hp, he, rfl⟩ | ⟨hp, -, u, hu, rfl⟩ | ⟨hp, u, hu, rfl⟩ | ⟨hp, rfl⟩ := mstepOnce_cases ht
  · obtain ⟨hReady, hTmo⟩ := Cells.eventPending_eq_false.mp he
    simp [Cells.stepsToIdle, Cells.stepsToPoll_of_poll hp, hReady, hTmo]
  · obtain ⟨w, hReady, -, rfl⟩ | ⟨hReady, hTmo, rfl⟩ := execMtake_cases hu
    · simp [Cells.stepsToIdle, Cells.stepsToPoll_of_poll hp, hReady]
    · simp [Cells.stepsToIdle, Cells.stepsToPoll_of_poll hp, hReady, hTmo]
  · obtain ⟨e, -, rfl⟩ := execMspd_cases hu
    simp only [Cells.stepsToIdle, Cells.stepsToPoll_of_speed hp, commit_st, State.withSt_st,
      Cells.publish_stepsToPoll, Cells.publish_ready, Cells.publish_tmo]
    omega
  · simp only [Cells.stepsToIdle, Cells.stepsToPoll_of_ind hp, commit_st, State.withSt_st,
      Cells.showDirection_stepsToPoll, Cells.showDirection_ready, Cells.showDirection_tmo]
    omega

theorem repeatStep_mstepOnce_stepsToIdle {n : Nat} {s t : State} (ht : repeatStep mstepOnce n s = .next t) :
    t.st.stepsToIdle = s.st.stepsToIdle - n := by
  induction n generalizing s with
  | zero => cases ht; rfl
  | succ n ih =>
    obtain ⟨u, hu, hRest⟩ := andThen_eq_next.mp ht
    rw [ih hRest, mstepOnce_stepsToIdle hu, Nat.sub_sub, Nat.add_comm]

/-! ## The timeout is the last event -/

/-- The timeout is the last event the main loop processes (R206): it is still pending, or no sample is, and it is the
event in hand or has already given the speed. -/
def Cells.TimeoutLast (c : Cells) : Prop :=
  c.tmo = true ∨
    (c.ready = false ∧ (c.mpc = Mpc.SPEED → c.mev = some .timeout) ∧ (c.mpc ≠ Mpc.SPEED → c.ms = 0#8))

theorem mstepOnce_keeps_timeoutLast {s t : State} (h : s.st.TimeoutLast) (ht : mstepOnce s = .next t) :
    t.st.TimeoutLast := by
  obtain ⟨-, -, rfl⟩ | ⟨hp, -, u, hu, rfl⟩ | ⟨hp, u, hu, rfl⟩ | ⟨hp, rfl⟩ := mstepOnce_cases ht
  · exact h
  · obtain ⟨w, hr, -, rfl⟩ | ⟨hr, -, rfl⟩ := execMtake_cases hu
    · obtain hTmo | ⟨hNone, -⟩ := h
      · exact .inl hTmo
      · exact absurd (hr.symm.trans hNone) (by decide)
    · exact .inr ⟨hr, fun _ => rfl, fun hi => absurd rfl hi⟩
  · obtain ⟨e, he, rfl⟩ := execMspd_cases hu
    obtain hTmo | ⟨hr, hMev, -⟩ := h
    · exact .inl hTmo
    · cases he.symm.trans (hMev hp)
      exact .inr ⟨hr, fun hi => absurd hi Mpc.IND_ne_SPEED, fun _ => rfl⟩
  · obtain hTmo | ⟨hr, -, hMs⟩ := h
    · exact .inl hTmo
    · exact .inr ⟨hr, fun hi => absurd hi Mpc.POLL_ne_SPEED, fun _ => hMs (hp ▸ Mpc.IND_ne_SPEED)⟩

/-! ## Runs with no captured edge -/

/-- A state of a run after a timeout with no edge captured since. -/
structure AfterTimeout (s : State) : Prop where
  inv6 : s.Inv6
  indicator : s.st.IndicatorFollows
  stopped : s.st.cap_run = false
  last : s.st.TimeoutLast

theorem AfterTimeout.of_reachInv {s : State} (h : s.ReachInv) (hTmo : s.st.tmo = true) (hStop : s.st.cap_run = false) :
    AfterTimeout s := by
  obtain ⟨hInv, hInd⟩ := State.reachInv_iff.mp h
  exact ⟨hInv, hInd, hStop, .inl hTmo⟩

/-- A stopped counter selects rising edges (R53 clause 3), so a FALL is not captured, and it does not count (R116): what
another agent does changes nothing the main loop reads. -/
theorem exec_offMainLoop {i : Instr} (hi : i.isStimulus = true) (hRise : i ≠ .rise) (hReset : i ≠ .reset)
    (hMain : ∀ n, i ≠ .mstep n) {s t : State} (h : s.Inv6) (hStop : s.st.cap_run = false)
    (ht : exec i s = .next t) :
    t.st.cap_run = s.st.cap_run ∧ sameMainLoop s.st t.st ∧ sameFlags s.st t.st := by
  cases i with
  | fall =>
    obtain ⟨-, ⟨hp, -⟩ | ⟨-, rfl⟩⟩ := execFall_cases ht
    · obtain ⟨-, -, -, ⟨-, -, hWR⟩, -⟩ := h
      exact absurd ((hWR hStop).2.symm.trans hp) (by decide)
    · exact ⟨rfl, ⟨rfl, rfl, rfl, rfl, rfl⟩, rfl, rfl⟩
  | ctick n =>
    obtain ⟨u, hu, -, -, -, -, -, hSame⟩ := captureTicks s n h (counted_eq_next.mp ht).1
    cases hu.symm.trans ht
    rw [hSame hStop]
    exact ⟨rfl, ⟨rfl, rfl, rfl, rfl, rfl⟩, rfl, rfl⟩
  | stick n =>
    obtain ⟨⟨⟨-, -, hRun, -⟩, hLoop, hFlags, -⟩, -⟩ := exec_frame ht
    exact ⟨hRun.symm, hLoop, hFlags⟩
  | rise => exact absurd rfl hRise
  | reset => exact absurd rfl hReset
  | mstep n => exact absurd rfl (hMain n)
  | _ => cases hi

theorem Cells.stepsToIdle_congr {a b : Cells} (hLoop : sameMainLoop a b) (hFlags : sameFlags a b) :
    b.stepsToIdle = a.stepsToIdle := by
  obtain ⟨-, -, -, hMpc, -⟩ := hLoop
  obtain ⟨hReady, hTmo⟩ := hFlags
  simp only [Cells.stepsToIdle, Cells.stepsToPoll, hMpc, hReady, hTmo]

theorem Cells.TimeoutLast.congr {a b : Cells} (h : a.TimeoutLast) (hLoop : sameMainLoop a b) (hFlags : sameFlags a b) :
    b.TimeoutLast := by
  obtain ⟨hMs, -, hMev, hMpc, -⟩ := hLoop
  obtain ⟨hReady, hTmo⟩ := hFlags
  simpa only [Cells.TimeoutLast, hMs, hMev, hMpc, hReady, hTmo] using h

/-- After the timeout every stimulus but RISE and RESET leaves the timeout the last event, and takes its main-loop steps
from the work left. -/
theorem AfterTimeout.exec_next {s t : State} (h : AfterTimeout s) {i : Instr}
    (hi : i.isStimulus = true ∧ i ≠ .rise ∧ i ≠ .reset) (ht : exec i s = .next t) :
    AfterTimeout t ∧ t.st.stepsToIdle = s.st.stepsToIdle - mainSteps i := by
  obtain ⟨hInv, hInd, hStop, hLast⟩ := h
  obtain ⟨hStim, hRise, hReset⟩ := hi
  have hInv' : t.Inv6 := (exec_within_inv6 hStim hInv).next ht
  have hInd' : t.st.IndicatorFollows := exec_keeps_indicatorFollows hStim hInd ht
  cases i with
  | mstep n =>
    have hSteps := (counted_eq_next.mp ht).2
    obtain ⟨⟨⟨-, -, hRun, -⟩, -⟩, -⟩ := exec_frame ht
    have hLast' : t.st.TimeoutLast :=
      repeatStep_keeps (P := fun u => u.st.TimeoutLast) (fun _ _ => mstepOnce_keeps_timeoutLast) n s t hLast hSteps
    exact ⟨⟨hInv', hInd', hRun ▸ hStop, hLast'⟩, repeatStep_mstepOnce_stepsToIdle hSteps⟩
  | _ =>
    obtain ⟨hRun, hLoop, hFlags⟩ := exec_offMainLoop hStim hRise hReset nofun hInv hStop ht
    exact ⟨⟨hInv', hInd', hRun.trans hStop, hLast.congr hLoop hFlags⟩, Cells.stepsToIdle_congr hLoop hFlags⟩

theorem AfterTimeout.execAll_next {s t : State} (h : AfterTimeout s) {ops : List Instr}
    (hops : ∀ i ∈ ops, i.isStimulus = true ∧ i ≠ .rise ∧ i ≠ .reset) (ht : execAll ops s = .next t) :
    AfterTimeout t ∧ t.st.stepsToIdle = s.st.stepsToIdle - (ops.map mainSteps).sum := by
  induction ops generalizing s with
  | nil => cases ht; exact ⟨h, rfl⟩
  | cons i ops ih =>
    obtain ⟨hi, hRest⟩ := List.forall_mem_cons.mp hops
    obtain ⟨u, hu, hOps⟩ := andThen_eq_next.mp ht
    obtain ⟨hNext, hOne⟩ := h.exec_next hi hu
    obtain ⟨hEnd, hAll⟩ := ih hNext hRest hOps
    exact ⟨hEnd, by rw [hAll, hOne, List.map_cons, List.sum_cons, Nat.sub_sub]⟩

/-- With at most MIND left to do the timeout's MSPD has run. -/
theorem AfterTimeout.ms_eq_zero {s : State} (h : AfterTimeout s) (hLeft : s.st.stepsToIdle ≤ 1) : s.st.ms = 0#8 := by
  obtain hTmo | ⟨-, -, hMs⟩ := h.last
  · exact absurd (hTmo.symm.trans (Cells.tmo_of_stepsToIdle_le_one hLeft)) (by decide)
  · exact hMs (Cells.mpc_of_stepsToIdle_le_one hLeft)

/-- With nothing left to do the indicator shows the speed 0 (R197). -/
theorem AfterTimeout.ind_eq_neutral {s : State} (h : AfterTimeout s) (hLeft : s.st.stepsToIdle = 0) :
    s.st.ind = Ind.NEU := by
  obtain ⟨hShows, -⟩ := h.indicator
  rw [hShows (Cells.mpc_of_stepsToIdle_eq_zero hLeft), h.ms_eq_zero (by omega)]
  rfl

/-! ## R210 -/

/-- In R210's worst case five steps finish the event in hand and the pending sample, and the sixth takes the timeout. -/
theorem repeatStep_mstepOnce_six {s : State} (h : s.Inv6) (hTmo : s.st.tmo = true) {w : CapTicks}
    (hp : s.st.mpc = Mpc.SPEED) (hr : s.st.ready = true) (hw : s.st.sample = some w) :
    ∃ u, repeatStep mstepOnce 6 s = .next u ∧ u.st.ms = translate s.cfg w := by
  obtain ⟨-, -, -, -, -, ⟨hMev, -⟩, -⟩ := h
  obtain ⟨e, he⟩ := Option.isSome_iff_exists.mp (hMev.mpr hp)
  obtain ⟨a, ha, hCfg, hSt⟩ := repeatStep_mstepOnce_finishes hp he
  obtain ⟨b, hb, -, hSt'⟩ := repeatStep_mstepOnce_sample (s := a) (w := w) (by rw [hSt]; rfl) (by rw [hSt]; exact hr)
    (by rw [hSt]; exact hw)
  rw [hSt, hCfg] at hSt'
  have hTake : mstepOnce b = .next (commit (.mstep 1) (some .mtake) (b.withSt b.st.takeTimeout)) := by
    have hReady : b.st.ready = false := by rw [hSt']; rfl
    have hPending : b.st.tmo = true := by rw [hSt']; exact hTmo
    have hPoll : b.st.mpc = Mpc.POLL := by rw [hSt']; rfl
    exact (mstepOnce_eq_exec b).trans
      (exec_mstep_one_of_pending hPoll (.inr hPending) (execMtake_of_timeout hReady hPending))
  refine ⟨commit (.mstep 1) (some .mtake) (b.withSt b.st.takeTimeout), ?_, by
    rw [commit_st, State.withSt_st, hSt']; rfl⟩
  rw [repeatStep_add mstepOnce 2 4, ha, andThen_next, repeatStep_add mstepOnce 3 1, hb, andThen_next, repeatStep_one,
    hTake]

/-- Settles O50: at most eight steps of work are left at the timeout, each main-loop step does one, and the last two are
the timeout's MSPD and MIND. -/
theorem timeoutReachesZeroSpeed : Obligations.TimeoutReachesZeroSpeed := by
  intro s h hTmo hStop
  have hStart := AfterTimeout.of_reachInv h hTmo hStop
  refine ⟨fun t ops hops ht => ?_, fun w hp hr hw => repeatStep_mstepOnce_six hStart.inv6 hTmo hp hr hw⟩
  obtain ⟨hEnd, hLeft⟩ := hStart.execAll_next hops ht
  have hLe := s.st.stepsToIdle_le
  refine ⟨fun hSeven => hEnd.ms_eq_zero (by omega), fun hEight => hEnd.ind_eq_neutral (by omega), fun hp hr hTwo => ?_⟩
  have hThree : s.st.stepsToIdle = 3 := by simp [Cells.stepsToIdle, Cells.stepsToPoll_of_poll hp, hr, hTmo]
  exact hEnd.ms_eq_zero (by omega)

/-! ## Fair infinite runs -/

/-- Where every main-loop step does one step of the work left, a fair run does it all, and none comes back. -/
theorem eventually_zero_of_fair {stimuli : Nat → Instr} (hFair : FairToMain stimuli) {left : Nat → Nat}
    (hStep : ∀ k, left (k + 1) = left k - mainSteps (stimuli k)) : ∃ m, ∀ k, m ≤ k → left k = 0 := by
  have hAnti : Antitone left := antitone_nat_of_succ_le fun k => (hStep k).le.trans (Nat.sub_le _ _)
  have hAmount (n : Nat) : ∃ m, left m ≤ left 0 - n := by
    induction n with
    | zero => exact ⟨0, le_rfl⟩
    | succ n ih =>
      obtain ⟨m, hm⟩ := ih
      obtain ⟨k, hk, hMain⟩ := hFair m
      have hLe := hAnti hk
      have hNext := hStep k
      exact ⟨k + 1, by omega⟩
  obtain ⟨m, hm⟩ := hAmount (left 0)
  rw [Nat.sub_self] at hm
  exact ⟨m, fun k hk => Nat.le_zero.mp ((hAnti hk).trans hm)⟩

/-- Settles O51: a fair run does all the work the timeout left, and no state after that has any. -/
theorem fairRunsReachNeutral : Obligations.FairRunsReachNeutral := by
  intro stimuli states h hTmo hStop hQuiet hRun hFair
  have hAfter : ∀ k, AfterTimeout (states k) := by
    intro k
    induction k with
    | zero => exact AfterTimeout.of_reachInv h hTmo hStop
    | succ k ih => exact (ih.exec_next (hQuiet k) (hRun k)).1
  obtain ⟨m, hm⟩ := eventually_zero_of_fair (left := fun k => (states k).st.stepsToIdle) hFair
    fun k => ((hAfter k).exec_next (hQuiet k) (hRun k)).2
  refine ⟨m, fun k hk => ?_⟩
  have hIdle : (states k).st.stepsToIdle = 0 := hm k hk
  exact ⟨(hAfter k).ms_eq_zero (by omega), (hAfter k).ind_eq_neutral hIdle⟩

end Sys2Proof.Machine
end

section
/-! Proofs: what an atomic step records, the code of its handler included, and the records of an operation
(spec/30_encoding.md R86, R89, R97, spec/60_exceptions.md R236). -/

namespace Sys2Proof.Machine

/-! ## The handler of an atomic step -/

/-- A handler code in the newest record is of a handler that the agent of `i` may trigger. -/
def NewestHandlerOf (i : Instr) (t : State) : Prop := ∀ r ∈ t.log.head?, ∀ a ∈ r.act, a ∈ handlerCodes i

theorem newestHandlerOf_commit_none {i stim : Instr} {u : State} : NewestHandlerOf i (commit stim none u) := by
  simp [NewestHandlerOf]

theorem newestHandlerOf_commit_some {i stim act : Instr} {u : State} (h : encode act ∈ handlerCodes i) :
    NewestHandlerOf i (commit stim (some act) u) := by
  simpa [NewestHandlerOf] using h

theorem execRise_newestHandlerOf {s t : State} (h : execRise s = .next t) : NewestHandlerOf .rise t := by
  obtain ⟨-, ⟨-, rfl⟩ | ⟨-, rfl⟩⟩ := execRise_cases h
  · exact newestHandlerOf_commit_some (by decide)
  · exact newestHandlerOf_commit_none

theorem execFall_newestHandlerOf {s t : State} (h : execFall s = .next t) : NewestHandlerOf .fall t := by
  obtain ⟨-, ⟨-, rfl⟩ | ⟨-, rfl⟩⟩ := execFall_cases h
  · exact newestHandlerOf_commit_some (by decide)
  · exact newestHandlerOf_commit_none

theorem ctickOnce_newestHandlerOf {s t : State} (h : ctickOnce s = .next t) : NewestHandlerOf (.ctick 1) t := by
  rcases ctickOnce_cases s with ⟨-, -, hc⟩ | ⟨-, -, hc⟩ | ⟨-, hc⟩ <;> cases hc.symm.trans h
  · exact newestHandlerOf_commit_some (by decide)
  · exact newestHandlerOf_commit_none
  · exact newestHandlerOf_commit_none

theorem stickOnce_newestHandlerOf {s t : State} (h : stickOnce s = .next t) : NewestHandlerOf (.stick 1) t := by
  rcases stickOnce_cases s with ⟨-, hc⟩ | ⟨-, -, hc⟩ | ⟨-, -, hc⟩ <;> cases hc.symm.trans h
  · exact newestHandlerOf_commit_some (by decide)
  · exact newestHandlerOf_commit_some (by decide)
  · exact newestHandlerOf_commit_none

theorem mstepOnce_newestHandlerOf {s t : State} (h : mstepOnce s = .next t) : NewestHandlerOf (.mstep 1) t := by
  obtain ⟨-, -, rfl⟩ | ⟨-, -, u, -, rfl⟩ | ⟨-, u, -, rfl⟩ | ⟨-, rfl⟩ := mstepOnce_cases h
  · exact newestHandlerOf_commit_none
  · exact newestHandlerOf_commit_some (by decide)
  · exact newestHandlerOf_commit_some (by decide)
  · exact newestHandlerOf_commit_some (by decide)

theorem exec_singleOf_newestHandlerOf {i : Instr} (hi : i.isStimulus = true) {s t : State}
    (h : exec (singleOf i) s = .next t) : NewestHandlerOf i t := by
  cases i with
  | rise => exact execRise_newestHandlerOf h
  | fall => exact execFall_newestHandlerOf h
  | ctick n => exact ctickOnce_newestHandlerOf ((counted_one ctickOnce s).symm.trans h)
  | stick n => exact stickOnce_newestHandlerOf ((counted_one stickOnce s).symm.trans h)
  | mstep n => exact mstepOnce_newestHandlerOf ((counted_one mstepOnce s).symm.trans h)
  | reset => cases h; exact newestHandlerOf_commit_none
  | _ => cases hi

/-! ## The records of an operation -/

/-- R89's stimulus word "with a count of 1" is the word of the single step. -/
theorem stimulusRecord_eq_encode_singleOf {i : Instr} (hi : i.isStimulus = true) :
    stimulusRecord i = some (encode (singleOf i)) := by
  cases i with
  | rise | fall | ctick n | stick n | mstep n | reset => rfl
  | _ => cases hi

/-- From `s`, `k` atomic steps of `i` led to `t`: one record each, its handler one of `i`'s, and the newest shows the
output ports of `t`. -/
def RecordsAfter (i : Instr) (s : State) (k : Nat) (t : State) : Prop :=
  ∃ new, t.log = new ++ s.log ∧ new.length = k ∧
    (∀ r ∈ new, stimulusRecord i = some r.stim ∧ ∀ a ∈ r.act, a ∈ handlerCodes i) ∧
    (∀ r ∈ new.head?, r.hb = t.st.hb ∧ r.ind = t.st.ind)

theorem recordsAfter_zero {i : Instr} {s t : State} (h : t.log = s.log) : RecordsAfter i s 0 t :=
  ⟨[], h, rfl, nofun, nofun⟩

/-- An atomic step adds its one record. -/
theorem RecordsAfter.single {i : Instr} (hi : i.isStimulus = true) {s : State} (k : Nat) (u v : State)
    (h : RecordsAfter i s k u) (hv : exec (singleOf i) u = .next v) : RecordsAfter i s (k + 1) v := by
  obtain ⟨new, hLog, hLength, hEach, -⟩ := h
  obtain ⟨act, hRecord⟩ := exec_singleOf_recordsStep hi hv
  have hAct : ∀ a ∈ act, a ∈ handlerCodes i := exec_singleOf_newestHandlerOf hi hv _ (by rw [hRecord]; rfl)
  refine ⟨_ :: new, by rw [hRecord, hLog]; rfl, by rw [List.length_cons, hLength],
    List.forall_mem_cons.mpr ⟨⟨stimulusRecord_eq_encode_singleOf hi, hAct⟩, hEach⟩, ?_⟩
  rintro r ⟨⟩
  exact ⟨rfl, rfl⟩

/-- What every single step carries from `k` steps to `k + 1`, repeated steps carry by their number. -/
theorem repeatStep_carries {f : State → Result} {P : Nat → State → Prop}
    (one : ∀ k u v, P k u → f u = .next v → P (k + 1) v) {n k : Nat} {s t : State} (h : P k s)
    (ht : repeatStep f n s = .next t) : P (k + n) t := by
  induction n generalizing k s with
  | zero => cases ht; exact h
  | succ n ih =>
    obtain ⟨u, hu, hRest⟩ := andThen_eq_next.mp ht
    rw [Nat.add_comm n 1, ← Nat.add_assoc]
    exact ih (one k s u h hu) hRest

/-- What a count of 1 carries from `k` steps to `k + 1`, every count carries by its number. -/
theorem counted_carries {f : State → Result} {P : Nat → State → Prop}
    (one : ∀ k u v, P k u → counted f 1 u = .next v → P (k + 1) v) {n : Nat} {s t : State} (h : P 0 s)
    (ht : counted f n s = .next t) : P n t := by
  rw [← Nat.zero_add n]
  exact repeatStep_carries (fun k u v hu hv => one k u v hu ((counted_one f u).trans hv)) h (counted_eq_next.mp ht).2

/-- What every atomic step of a stimulus carries from `k` steps to `k + 1`, the stimulus carries by its count (R86). -/
theorem exec_carries_singleSteps {i : Instr} (hi : i.isStimulus = true) {P : Nat → State → Prop}
    (one : ∀ k u v, P k u → exec (singleOf i) u = .next v → P (k + 1) v) {s t : State} (h : P 0 s)
    (ht : exec i s = .next t) : P (singleSteps i) t := by
  cases i with
  | ctick n => exact counted_carries one h ht
  | stick n => exact counted_carries one h ht
  | mstep n => exact counted_carries one h ht
  | rise | fall | reset => exact one 0 s t h ht
  | _ => cases hi

/-- A handler action by itself records nothing (log entry 8). -/
theorem exec_action_log {i : Instr} (hi : i.isStimulus = false) {s t : State} (h : exec i s = .next t) :
    t.log = s.log := by
  cases i with
  | mtake => exact execMtake_log h
  | mspd => exact execMspd_log h
  | capr | capf | tmo | cmpa | cmpb | mind => cases h; rfl
  | _ => cases hi

theorem singleSteps_of_action {i : Instr} (hi : i.isStimulus = false) : singleSteps i = 0 := by
  cases i with
  | capr | capf | tmo | cmpa | cmpb | mtake | mspd | mind => rfl
  | _ => cases hi

/-- Settles O58: a stimulus adds one record an atomic step, a handler action none. -/
theorem oneHandlerPerStep : Obligations.OneHandlerPerStep := by
  intro i s t ht
  cases hi : i.isStimulus with
  | true => exact exec_carries_singleSteps hi (RecordsAfter.single hi) (recordsAfter_zero rfl) ht
  | false =>
    rw [singleSteps_of_action hi]
    exact recordsAfter_zero (exec_action_log hi ht)

end Sys2Proof.Machine
end

section
/-! Proofs: RESET by itself and the FALL after it (spec/70_reset_and_hazards.md R261). -/

namespace Sys2Proof.Machine

/-- Settles O16: RESET's one equation, and FALL's in WR, where RESET leaves the decoder. -/
theorem resetOperation : Obligations.ResetOperation :=
  ⟨by decide, fun _ => ⟨_, rfl, rfl, fun hl => ⟨_, execFall_of_ignored hl rfl, rfl⟩⟩⟩

end Sys2Proof.Machine
end

section
/-! Proofs: what the history holds before a speed is published and before the output drives, in every run from core
start (spec/70_reset_and_hazards.md R263). -/

namespace Sys2Proof.Machine

/-- What every operation of a list keeps, the list keeps. -/
theorem execAll_keeps {P : State → Prop} {ops : List Instr}
    (one : ∀ i ∈ ops, ∀ s t, P s → exec i s = .next t → P t) {s t : State} (h : P s) (ht : execAll ops s = .next t) :
    P t := by
  induction ops generalizing s with
  | nil => cases ht; exact h
  | cons i ops ih =>
    obtain ⟨hOne, hRest⟩ := List.forall_mem_cons.mp one
    obtain ⟨u, hu, hOps⟩ := andThen_eq_next.mp ht
    exact ih hRest (hOne s u h hu) hOps

/-! ## Codes in the history -/

/-- The codes stand in the history in this order, other words between them. -/
def Recorded (codes : List Word) (s : State) : Prop := codes.Sublist s.history

/-- From `s` to `t` one record is written, and the handler in it is `a`. -/
def RunsHandler (a : Instr) (s t : State) : Prop := ∃ r, t.log = r :: s.log ∧ r.act = some (encode a)

theorem runsHandler_commit {i a : Instr} {s u : State} (h : u.log = s.log) :
    RunsHandler a s (commit i (some a) u) := ⟨_, by rw [commit_log, h], rfl⟩

section
variable {codes : List Word} {s t : State}

theorem Recorded.mono (h : Recorded codes s) (hst : LogGrows s t) : Recorded codes t :=
  h.trans ((List.reverse_prefix.mpr hst).flatMap _).sublist

theorem State.history_of_log_cons {r : StepRecord} (h : t.log = r :: s.log) :
    t.history = s.history ++ r.words := by
  simp [State.history, h]

/-- A handler's code comes after all the codes before its step. -/
theorem Recorded.append {a : Instr} (h : Recorded codes s) (hRun : RunsHandler a s t) :
    Recorded (codes ++ [encode a]) t := by
  obtain ⟨r, hLog, hAct⟩ := hRun
  rw [Recorded, State.history_of_log_cons hLog, StepRecord.words, hAct]
  exact List.Sublist.append h (List.sublist_cons_self _ _)

end

/-! ## What each cell of the chain from a pulse to a drive needs

An atomic step after which a flag, an event, a speed or a drive pattern stands found it so, or ran the handler that makes
it of the cell before it in the chain. -/

section
variable {i : Instr} (hi : i.isStimulus = true) {s t : State}
include hi

theorem exec_sameMainLoop (hReset : i ≠ .reset) (hMain : ∀ n, i ≠ .mstep n) (ht : exec i s = .next t) :
    sameMainLoop s.st t.st := by
  obtain ⟨hOwned, -⟩ := exec_frame ht
  cases i with
  | rise | fall | ctick n | stick n => obtain ⟨-, hLoop, -⟩ := hOwned; exact hLoop
  | mstep n => exact absurd rfl (hMain n)
  | reset => exact absurd rfl hReset
  | _ => cases hi

/-- A sample is ready after its CAPF only (R118). -/
theorem exec_singleOf_ready (ht : exec (singleOf i) s = .next t) (hr : t.st.ready = true) :
    s.st.ready = true ∨ RunsHandler .capf s t := by
  obtain ⟨hOwned, -⟩ := exec_frame ht
  cases i with
  | rise => obtain ⟨-, -, ⟨hReady, -⟩, -⟩ := hOwned; exact .inl (hReady.trans hr)
  | ctick n => obtain ⟨-, -, hReady, -⟩ := hOwned; exact .inl (hReady.trans hr)
  | stick n => obtain ⟨-, -, ⟨hReady, -⟩, -⟩ := hOwned; exact .inl (hReady.trans hr)
  | fall =>
    obtain ⟨-, ⟨-, rfl⟩ | ⟨-, rfl⟩⟩ := execFall_cases ht
    · exact .inr (runsHandler_commit rfl)
    · exact .inl hr
  | mstep n =>
    obtain ⟨-, -, rfl⟩ | ⟨-, -, u, hu, rfl⟩ | ⟨-, u, hu, rfl⟩ | ⟨-, rfl⟩ :=
      mstepOnce_cases ((mstepOnce_eq_exec s).trans ht)
    · exact .inl hr
    · obtain ⟨w, -, -, rfl⟩ | ⟨-, -, rfl⟩ := execMtake_cases hu
      · cases hr
      · exact .inl hr
    · obtain ⟨e, -, rfl⟩ := execMspd_cases hu
      exact .inl hr
    · exact .inl hr
  | reset => cases ht; cases hr
  | _ => cases hi

/-- A sample is in hand after its MTAKE only, which found it ready (R203). -/
theorem exec_singleOf_sample_in_hand (ht : exec (singleOf i) s = .next t) {w : CapTicks}
    (hw : t.st.mev = some (.sample w)) :
    s.st.mev = some (.sample w) ∨ s.st.ready = true ∧ RunsHandler .mtake s t := by
  cases i with
  | mstep n =>
    obtain ⟨-, -, rfl⟩ | ⟨-, -, u, hu, rfl⟩ | ⟨-, u, hu, rfl⟩ | ⟨-, rfl⟩ :=
      mstepOnce_cases ((mstepOnce_eq_exec s).trans ht)
    · exact .inl hw
    · obtain ⟨w, hr, -, rfl⟩ | ⟨-, -, rfl⟩ := execMtake_cases hu
      · exact .inr ⟨hr, runsHandler_commit rfl⟩
      · cases hw
    · obtain ⟨e, -, rfl⟩ := execMspd_cases hu
      cases hw
    · exact .inl hw
  | reset => cases ht; cases hw
  | _ =>
    obtain ⟨-, -, hMev, -⟩ := exec_sameMainLoop (singleOf_isStimulus hi) nofun nofun ht
    exact .inl (hMev.trans hw)

/-- A speed other than 0 comes from a sample in hand by MSPD, since a timeout's speed is 0 (R204). -/
theorem exec_singleOf_speed (ht : exec (singleOf i) s = .next t) (hMs : t.st.ms ≠ 0#8) :
    s.st.ms ≠ 0#8 ∨ (∃ w, s.st.mev = some (.sample w)) ∧ RunsHandler .mspd s t := by
  cases i with
  | mstep n =>
    obtain ⟨-, -, rfl⟩ | ⟨-, -, u, hu, rfl⟩ | ⟨-, u, hu, rfl⟩ | ⟨-, rfl⟩ :=
      mstepOnce_cases ((mstepOnce_eq_exec s).trans ht)
    · exact .inl hMs
    · obtain ⟨w, -, -, rfl⟩ | ⟨-, -, rfl⟩ := execMtake_cases hu
      · exact .inl hMs
      · exact .inl hMs
    · obtain ⟨e, he, rfl⟩ := execMspd_cases hu
      cases e with
      | sample w => exact .inr ⟨⟨w, he⟩, runsHandler_commit rfl⟩
      | timeout => exact absurd rfl hMs
    · exact .inl hMs
  | reset => cases ht; exact absurd rfl hMs
  | _ =>
    obtain ⟨hSame, -⟩ := exec_sameMainLoop (singleOf_isStimulus hi) nofun nofun ht
    exact .inl (hSame ▸ hMs)

end

/-! ## The recharge pattern, now and after every earlier atomic step -/

/-- The output is RCH and was after each atomic step so far. -/
def AlwaysRecharging (s : State) : Prop := s.st.hb = Hb.RCH ∧ ∀ r ∈ s.log, r.hb = Hb.RCH

theorem not_alwaysRecharging {s : State} :
    ¬AlwaysRecharging s ↔ s.st.hb ≠ Hb.RCH ∨ ∃ r ∈ s.log, r.hb ≠ Hb.RCH := by
  simp [AlwaysRecharging, imp_iff_not_or]

theorem AlwaysRecharging.single {i : Instr} (hi : i.isStimulus = true) {s t : State} (h : AlwaysRecharging s)
    (ht : exec (singleOf i) s = .next t) (hHb : t.st.hb = Hb.RCH) : AlwaysRecharging t := by
  obtain ⟨act, hLog⟩ := exec_singleOf_recordsStep hi ht
  exact ⟨hHb, hLog ▸ List.forall_mem_cons.mpr ⟨hHb, h.2⟩⟩

/-- No step but a switching tick drives. -/
theorem AlwaysRecharging.single_of_not_stick {i : Instr} (hi : i.isStimulus = true) (hStick : ∀ n, i ≠ .stick n)
    {s t : State} (h : AlwaysRecharging s) (ht : exec (singleOf i) s = .next t) : AlwaysRecharging t := by
  refine h.single hi ht ?_
  cases i with
  | stick n => exact absurd rfl (hStick n)
  | reset => cases ht; rfl
  | _ =>
    obtain ⟨-, -, hHb⟩ := (exec_offSwitchClock (singleOf_isStimulus hi) nofun nofun ht).scheduler
    exact hHb.symm.trans h.1

/-- A switching tick drives by CMPA at a speed other than 0 only (R166). -/
theorem AlwaysRecharging.tick {n : Nat} {s t : State} (h : AlwaysRecharging s)
    (ht : exec (singleOf (.stick n)) s = .next t) :
    AlwaysRecharging t ∨ s.st.ms ≠ 0#8 ∧ RunsHandler .cmpa s t := by
  have hTick : stickOnce s = .next t := (counted_one stickOnce s).symm.trans ht
  have hRecharging : t.st.hb = Hb.RCH → AlwaysRecharging t := h.single (i := .stick n) rfl ht
  rcases stickOnce_cases s with ⟨-, hc⟩ | ⟨-, -, hc⟩ | ⟨-, -, hc⟩ <;> cases hc.symm.trans hTick
  · by_cases hMs : s.st.ms = 0#8
    · have hZero : s.st.wrapSwitch.ms.toInt = 0 := by rw [Cells.wrapSwitch_ms, hMs]; rfl
      exact .inl (hRecharging ((Cells.startPeriod_hb_zero hZero).trans h.1))
    · exact .inr ⟨hMs, runsHandler_commit rfl⟩
  · exact .inl (hRecharging rfl)
  · exact .inl (hRecharging h.1)

/-- A drive since the start needs the CMPA that began it, which read a speed other than 0 (R166). -/
theorem exec_singleOf_drive {i : Instr} (hi : i.isStimulus = true) {s t : State} (ht : exec (singleOf i) s = .next t)
    (hDrive : ¬AlwaysRecharging t) : ¬AlwaysRecharging s ∨ s.st.ms ≠ 0#8 ∧ RunsHandler .cmpa s t := by
  by_cases hOld : AlwaysRecharging s
  · cases i with
    | stick n => exact .inr ((hOld.tick ht).resolve_left hDrive)
    | _ => exact absurd (hOld.single_of_not_stick hi nofun ht) hDrive
  · exact .inl hOld

/-- At speed 0 a whole word leaves the output recharging: only a switching word can drive, and it leaves the speed. -/
theorem AlwaysRecharging.exec_of_still {i : Instr} (hi : i.isStimulus = true) {s t : State} (h : AlwaysRecharging s)
    (hMs : s.st.ms = 0#8) (ht : exec i s = .next t) : AlwaysRecharging t := by
  cases i with
  | stick n =>
    obtain ⟨hEnd, -⟩ := exec_keeps_of_singleOf (P := fun u => AlwaysRecharging u ∧ u.st.ms = 0#8)
      (fun u v ⟨hu, hZero⟩ hv => by
        obtain ⟨hSame, -⟩ := exec_sameMainLoop (i := .stick 1) rfl nofun nofun hv
        exact ⟨(hu.tick hv).resolve_right fun ⟨hNonzero, _⟩ => hNonzero hZero, hSame ▸ hZero⟩)
      ⟨h, hMs⟩ ht
    exact hEnd
  | _ => exact exec_keeps_of_singleOf (fun u v hu hv => hu.single_of_not_stick hi nofun hv) h ht

theorem AlwaysRecharging.execAll_of_still {ops : List Instr} (hops : ∀ i ∈ ops, i.isStimulus = true) {s t : State}
    (h : AlwaysRecharging s) (hMs : ∀ pre u, pre <+: ops → execAll pre s = .next u → u.st.ms = 0#8)
    (ht : execAll ops s = .next t) : AlwaysRecharging t := by
  induction ops generalizing s with
  | nil => cases ht; exact h
  | cons i ops ih =>
    obtain ⟨hi, hRest⟩ := List.forall_mem_cons.mp hops
    obtain ⟨u, hu, hOps⟩ := andThen_eq_next.mp ht
    refine ih hRest (h.exec_of_still hi (hMs [] s List.nil_prefix rfl) hu) (fun pre v hpre hv => ?_) hOps
    exact hMs (i :: pre) v (List.cons_prefix_cons.mpr ⟨rfl, hpre⟩) (andThen_eq_next.mpr ⟨u, hu, hv⟩)

/-! ## R263 -/

/-- Each cell of the chain from a pulse to a drive has its handlers in the history, in their order. -/
structure CausesRecorded (s : State) : Prop where
  ready : s.st.ready = true → Recorded [0x9000#16] s
  sample : ∀ w, s.st.mev = some (.sample w) → Recorded [0x9000#16, 0xD000#16] s
  speed : s.st.ms ≠ 0#8 → Recorded [0x9000#16, 0xD000#16, 0xE000#16] s
  drive : ¬AlwaysRecharging s → Recorded [0x9000#16, 0xD000#16, 0xE000#16, 0xB000#16] s

theorem coreStart_alwaysRecharging (cfg : Config) (ws : List Word) : AlwaysRecharging (State.coreStart cfg ws) :=
  ⟨rfl, nofun⟩

theorem coreStart_causesRecorded (cfg : Config) (ws : List Word) : CausesRecorded (State.coreStart cfg ws) :=
  ⟨nofun, nofun, fun hMs => absurd rfl hMs, fun hDrive => absurd (coreStart_alwaysRecharging cfg ws) hDrive⟩

theorem CausesRecorded.single {i : Instr} (hi : i.isStimulus = true) {s t : State} (h : CausesRecorded s)
    (ht : exec (singleOf i) s = .next t) : CausesRecorded t := by
  have hGrows := exec_logGrows ht
  refine ⟨fun hr => ?_, fun w hw => ?_, fun hMs => ?_, fun hDrive => ?_⟩
  · obtain hOld | hRun := exec_singleOf_ready hi ht hr
    · exact (h.ready hOld).mono hGrows
    · exact Recorded.append (List.nil_sublist _) hRun
  · obtain hOld | ⟨hr, hRun⟩ := exec_singleOf_sample_in_hand hi ht hw
    · exact (h.sample w hOld).mono hGrows
    · exact (h.ready hr).append hRun
  · obtain hOld | ⟨⟨w, hw⟩, hRun⟩ := exec_singleOf_speed hi ht hMs
    · exact (h.speed hOld).mono hGrows
    · exact (h.sample w hw).append hRun
  · obtain hOld | ⟨hMs, hRun⟩ := exec_singleOf_drive hi ht hDrive
    · exact (h.drive hOld).mono hGrows
    · exact (h.speed hMs).append hRun

/-- Settles O35: a run at speed 0 never drives, and each handler of the chain finds the codes of those before it. -/
theorem rechargeUntilFirstSpeed : Obligations.RechargeUntilFirstSpeed := by
  intro cfg ws ops t _ hops ht
  have hEnd : CausesRecorded t :=
    execAll_keeps (fun i hi _ _ => exec_keeps_of_singleOf fun _ _ hu hv => hu.single (hops i hi) hv)
      (coreStart_causesRecorded cfg ws) ht
  exact ⟨fun hStill => (coreStart_alwaysRecharging cfg ws).execAll_of_still hops hStill ht, hEnd.speed,
    fun hDrive => hEnd.drive (not_alwaysRecharging.mpr hDrive)⟩

end Sys2Proof.Machine
end
